-- ==== Sys2Proof/Word.lean ====
section
/-! DEFINITION. The word types of the EDIFACT packing engine (`00_scope.md` R4, R13): a character, a
codeword and a buffer cell are 8 bits, a packed value is 6 bits. Every quantity is unsigned (R13). -/

namespace Sys2Proof

/-- `W_CHAR` and `W_CW` (R4): an input character, a codeword and a pending-buffer cell. -/
abbrev Byte := BitVec 8

/-- `W_VAL` (R4): the 6-bit quantity packed for one character. -/
abbrev Value := BitVec 6

end Sys2Proof
end

