-- ==== Sys2Proof/Syntax.lean ====
section
/-! DEFINITION. The operations of the engine as syntax: one constructor of `Instr` for each row of
`spec/opcode_table.json`. The rows belong to six channels (`30_encoding.md` R80, `41_consume_loop.md`
R140): the phase register, the `start` pin, the command port, the character of a `TAKE` answer, the
codeword of an `EMIT`, and the packing forms. A word is read only together with its channel, `Fmt`. -/

namespace Sys2Proof

/-- One operation. Operand fields are those of the row's bit pattern. -/
inductive Instr where
  -- the sixteen phases (R25)
  | idle | lTake | lFlush | lSwq | eCnt | ePeek | eSpc1 | ePb
  | eMore | eSpc0 | eUnlp | eUnls | eSpck | eMode | eFlush | halt
  -- the start pin sampled as 1 (R140)
  | start
  -- the host commands (R92)
  | nop | take | count | peek | more
  | pushback (n : BitVec 2)
  | emit (cw : Byte)
  | space (n : BitVec 2)
  | setmode (mode : BitVec 3)
  | switchq
  -- the reserved command codes (R95)
  | reserved10 (arg : Byte) | reserved11 (arg : Byte) | reserved12 (arg : Byte)
  | reserved13 (arg : Byte) | reserved14 (arg : Byte) | reserved15 (arg : Byte)
  -- the character classes (R81)
  | chUnl
  | chLow (x : BitVec 5)
  | chA (x : BitVec 5)
  | chB40 (x : BitVec 4)
  | chB50 (x : BitVec 3)
  | chB58 (x : BitVec 2)
  | chB5C (x : BitVec 1)
  | chB5E
  | chHi1 (x : BitVec 5)
  | chHi2 (x : BitVec 7)
  -- the codeword layouts (R85 to R87) and the unlatch codeword (R89)
  | cw0 (a : BitVec 6) (b : BitVec 2)
  | cw1 (b : BitVec 4) (c : BitVec 4)
  | cw2 (c : BitVec 2) (d : BitVec 6)
  | unlatchcw
  -- the packing forms (R121 to R124)
  | pack4 (a b c d : Value)
  | pack3 (a b c : Value)
  | pack2 (a b : Value)
  | pack1 (a : Value)
  deriving DecidableEq, Repr

/-- The channel a word stands on. The three layouts and the unlatch codeword are told apart by which
step emits them (R94), the packing forms by the count (R98); `unknown` is no channel. -/
inductive Fmt where
  | phase | pin | hcmd | char | cw0 | cw1 | cw2 | unlatchCw
  | pack4 | pack3 | pack2 | pack1 | unknown
  deriving DecidableEq, Repr

/-- The width of a channel's word, as `spec/opcode_table.json` gives it. -/
def Fmt.width : Fmt → Nat
  | .phase => 4
  | .pin => 1
  | .hcmd => 12
  | .char => 8
  | .cw0 => 8
  | .cw1 => 8
  | .cw2 => 8
  | .unlatchCw => 8
  | .pack4 => 24
  | .pack3 => 24
  | .pack2 => 16
  | .pack1 => 8
  | .unknown => 24

/-- A word with the channel it stands on; 24 bits hold the longest word. -/
structure TableWord where
  fmt : Fmt
  bits : BitVec 24
  deriving DecidableEq, Repr

/-- Why a word is no operation. -/
inductive DecodeError where
  /-- The word stands on no channel of the spec. -/
  | noSuchChannel
  /-- The word has a bit set above its channel's width. -/
  | tooWide
  /-- The `start` pin is 0: no `START` is sampled (R140). -/
  | startPinLow
  /-- A command whose operand bits are not the ones R92 gives its `op`. -/
  | operandBits (op : BitVec 4)
  /-- On the unlatch channel, a codeword other than `0x7C` (R89). -/
  | notUnlatch
  /-- A packing form whose zero fill is not zero (R58). -/
  | fillNotZero
  deriving DecidableEq, Repr

end Sys2Proof
end

