-- ==== Sys2Proof/Decode.lean ====
section
/-! DEFINITION. The decoder of every channel of `30_encoding.md` (total, rejecting by name), the
encoder written from the same tables, and the reading of a table row's bits. -/

namespace Sys2Proof

/-- The phase codes of `10_state.md` R25; all sixteen are used. -/
def decodePhase (code : BitVec 4) : Instr :=
  match code.toNat with
  | 0 => .idle
  | 1 => .lTake
  | 2 => .lFlush
  | 3 => .lSwq
  | 4 => .eCnt
  | 5 => .ePeek
  | 6 => .eSpc1
  | 7 => .ePb
  | 8 => .eMore
  | 9 => .eSpc0
  | 10 => .eUnlp
  | 11 => .eUnls
  | 12 => .eSpck
  | 13 => .eMode
  | 14 => .eFlush
  | _ => .halt

/-- The character classes of R81, by their match and mask pairs. -/
def decodeChar (c : Byte) : Instr :=
  if c = 0x5F then .chUnl
  else if c &&& 0xE0 = 0x00 then .chLow (c.extractLsb' 0 5)
  else if c &&& 0xE0 = 0x20 then .chA (c.extractLsb' 0 5)
  else if c &&& 0xF0 = 0x40 then .chB40 (c.extractLsb' 0 4)
  else if c &&& 0xF8 = 0x50 then .chB50 (c.extractLsb' 0 3)
  else if c &&& 0xFC = 0x58 then .chB58 (c.extractLsb' 0 2)
  else if c &&& 0xFE = 0x5C then .chB5C (c.extractLsb' 0 1)
  else if c = 0x5E then .chB5E
  else if c &&& 0xE0 = 0x60 then .chHi1 (c.extractLsb' 0 5)
  else .chHi2 (c.extractLsb' 0 7)

/-- The operation `i` if the operand bits are as they must be. -/
def accept (ok : Bool) (e : DecodeError) (i : Instr) : Except DecodeError Instr :=
  if ok then .ok i else .error e

/-- The command word of R91 and R92: `op` is bits [11:8], `arg` is bits [7:0]. -/
def decodeHcmd (w : BitVec 12) : Except DecodeError Instr :=
  let op := w.extractLsb' 8 4
  let arg : Byte := w.extractLsb' 0 8
  match op.toNat with
  | 0 => accept (arg == 0) (.operandBits op) .nop
  | 1 => accept (arg == 0) (.operandBits op) .take
  | 2 => accept (arg == 0) (.operandBits op) .count
  | 3 => accept (arg == 0) (.operandBits op) .peek
  | 4 => accept (arg == 0) (.operandBits op) .more
  | 5 => accept (arg.extractLsb' 2 6 == 0) (.operandBits op) (.pushback (arg.extractLsb' 0 2))
  | 6 => .ok (.emit arg)
  | 7 => accept (arg.extractLsb' 2 6 == 0) (.operandBits op) (.space (arg.extractLsb' 0 2))
  | 8 => accept (arg.extractLsb' 3 5 == 0) (.operandBits op) (.setmode (arg.extractLsb' 0 3))
  | 9 => accept (arg == 0) (.operandBits op) .switchq
  | 10 => .ok (.reserved10 arg)
  | 11 => .ok (.reserved11 arg)
  | 12 => .ok (.reserved12 arg)
  | 13 => .ok (.reserved13 arg)
  | 14 => .ok (.reserved14 arg)
  | _ => .ok (.reserved15 arg)

/-- The operation a word stands for on its channel. -/
def decode (w : TableWord) : Except DecodeError Instr :=
  if 2 ^ w.fmt.width ≤ w.bits.toNat then .error .tooWide
  else
    match w.fmt with
    | .phase => .ok (decodePhase (w.bits.extractLsb' 0 4))
    | .pin => accept (w.bits == 1) .startPinLow .start
    | .hcmd => decodeHcmd (w.bits.extractLsb' 0 12)
    | .char => .ok (decodeChar (w.bits.extractLsb' 0 8))
    | .cw0 => .ok (.cw0 (w.bits.extractLsb' 2 6) (w.bits.extractLsb' 0 2))
    | .cw1 => .ok (.cw1 (w.bits.extractLsb' 4 4) (w.bits.extractLsb' 0 4))
    | .cw2 => .ok (.cw2 (w.bits.extractLsb' 6 2) (w.bits.extractLsb' 0 6))
    | .unlatchCw => accept (w.bits == 0x7C) .notUnlatch .unlatchcw
    | .pack4 =>
      .ok (.pack4 (w.bits.extractLsb' 18 6) (w.bits.extractLsb' 12 6) (w.bits.extractLsb' 6 6)
        (w.bits.extractLsb' 0 6))
    | .pack3 =>
      accept (w.bits.extractLsb' 0 6 == 0) .fillNotZero
        (.pack3 (w.bits.extractLsb' 18 6) (w.bits.extractLsb' 12 6) (w.bits.extractLsb' 6 6))
    | .pack2 =>
      accept (w.bits.extractLsb' 0 4 == 0) .fillNotZero
        (.pack2 (w.bits.extractLsb' 10 6) (w.bits.extractLsb' 4 6))
    | .pack1 => accept (w.bits.extractLsb' 0 2 == 0) .fillNotZero (.pack1 (w.bits.extractLsb' 2 6))
    | .unknown => .error .noSuchChannel

/-- A phase word (R25). -/
def phaseWord (code : BitVec 4) : TableWord := ⟨.phase, code.setWidth 24⟩

/-- A command word `op ++ arg` (R91). -/
def hcmdWord (op : BitVec 4) (arg : Byte) : TableWord := ⟨.hcmd, (op ++ arg).setWidth 24⟩

/-- A character (R80). -/
def charWord (c : Byte) : TableWord := ⟨.char, c.setWidth 24⟩

/-- The word of an operation, from the same tables: phases R25, commands R92, characters R81,
codewords R85 to R89, packing forms R121 to R124. -/
def encode : Instr → TableWord
  | .idle => phaseWord 0
  | .lTake => phaseWord 1
  | .lFlush => phaseWord 2
  | .lSwq => phaseWord 3
  | .eCnt => phaseWord 4
  | .ePeek => phaseWord 5
  | .eSpc1 => phaseWord 6
  | .ePb => phaseWord 7
  | .eMore => phaseWord 8
  | .eSpc0 => phaseWord 9
  | .eUnlp => phaseWord 10
  | .eUnls => phaseWord 11
  | .eSpck => phaseWord 12
  | .eMode => phaseWord 13
  | .eFlush => phaseWord 14
  | .halt => phaseWord 15
  | .start => ⟨.pin, 1⟩
  | .nop => hcmdWord 0 0
  | .take => hcmdWord 1 0
  | .count => hcmdWord 2 0
  | .peek => hcmdWord 3 0
  | .more => hcmdWord 4 0
  | .pushback n => hcmdWord 5 (n.setWidth 8)
  | .emit cw => hcmdWord 6 cw
  | .space n => hcmdWord 7 (n.setWidth 8)
  | .setmode mode => hcmdWord 8 (mode.setWidth 8)
  | .switchq => hcmdWord 9 0
  | .reserved10 arg => hcmdWord 10 arg
  | .reserved11 arg => hcmdWord 11 arg
  | .reserved12 arg => hcmdWord 12 arg
  | .reserved13 arg => hcmdWord 13 arg
  | .reserved14 arg => hcmdWord 14 arg
  | .reserved15 arg => hcmdWord 15 arg
  | .chUnl => charWord 0x5F
  | .chLow x => charWord (0b000#3 ++ x)
  | .chA x => charWord (0b001#3 ++ x)
  | .chB40 x => charWord (0b0100#4 ++ x)
  | .chB50 x => charWord (0b01010#5 ++ x)
  | .chB58 x => charWord (0b010110#6 ++ x)
  | .chB5C x => charWord (0b0101110#7 ++ x)
  | .chB5E => charWord 0x5E
  | .chHi1 x => charWord (0b011#3 ++ x)
  | .chHi2 x => charWord (0b1#1 ++ x)
  | .cw0 a b => ⟨.cw0, (a ++ b).setWidth 24⟩
  | .cw1 b c => ⟨.cw1, (b ++ c).setWidth 24⟩
  | .cw2 c d => ⟨.cw2, (c ++ d).setWidth 24⟩
  | .unlatchcw => ⟨.unlatchCw, 0x7C⟩
  | .pack4 a b c d => ⟨.pack4, a ++ b ++ c ++ d⟩
  | .pack3 a b c => ⟨.pack3, a ++ b ++ c ++ 0#6⟩
  | .pack2 a b => ⟨.pack2, (a ++ b ++ 0#4).setWidth 24⟩
  | .pack1 a => ⟨.pack1, (a ++ 0#2).setWidth 24⟩

/-- The channel a table row's word is read on when only its bits are known. The table gives rows of
different channels the same bits, and this is the model's order among them: a width no other channel
has names its channel; in whole bytes, 8 bits are a phase code (0 to 15), the unlatch codeword (`0x7C`)
or a character, 16 bits a command (12 bits) or `PACK2`, 24 bits `PACK3` (zero fill) or `PACK4`.
DESIGN CHOICE (log entry 3). -/
def tableFormat (nbits w : Nat) : Fmt :=
  if 2 ^ nbits ≤ w then .unknown
  else
    match nbits with
    | 1 => .pin
    | 4 => .phase
    | 12 => .hcmd
    | 8 => if w < 16 then .phase else if w = 0x7C then .unlatchCw else .char
    | 16 => if w < 4096 then .hcmd else .pack2
    | 24 => if w % 64 = 0 then .pack3 else .pack4
    | _ => .unknown

/-- A table row's bits on that channel. -/
def tableWord (nbits w : Nat) : TableWord := ⟨tableFormat nbits w, BitVec.ofNat 24 w⟩

/-- The operation the decoder reads from a table row's bits. -/
def decodeTableWord (nbits w : Nat) : Option Instr :=
  match decode (tableWord nbits w) with
  | .ok i => some i
  | .error _ => none

end Sys2Proof
end

