-- ==== Sys2Proof/Config.lean ====
section
/-! DEFINITION. What is fixed for the machine (`00_scope.md` R4 to R9) and the values the spec leaves
open. A constant with no body is a free value: no proof can see what it is, so a claim that mentions
one holds whatever it is. -/

namespace Sys2Proof.Config

/-- `ENC_LO` (R5): the lowest encodable character. -/
def encLo : Nat := 32

/-- `ENC_HI` (R5): the highest encodable character. -/
def encHi : Nat := 94

/-- `UNLATCH` (R6): the 6-bit unlatch marker. -/
def unlatch : Value := 31

/-- `MODE_DEFAULT` on `W_MODE = 3` bits (R9): the only mode code the engine sends. -/
def modeDefault : BitVec 3 := 0

/-- `AsciiSize` (R8): how many codewords the default mode needs for a tail. A parameter of which the
engine assumes nothing (D9, U1). -/
opaque asciiSize : List Byte → Nat

/-- The answer to `SPACE(n)` of a host whose capacity state is not written out in the state, after the
codewords of the first argument are in its sink (R197, L2, U4). A function of the sink and `n` alone,
because `SPACE` is a pure query (R60, H6). -/
opaque spaceAnswer : List Byte → Nat → Option Nat

/-- The draw behind a `SWITCHQ` answer (R199, L1, U3). -/
opaque switchAnswer : Nat → Bool

/-- Where the host's cursor comes to stand when more characters are un-consumed than were taken: the draw
behind it (R195 b, N16). -/
opaque pushbackPos : Nat → Nat

/-- The `flag` field of a response that does not use it (R93, U8). -/
opaque unusedFlag : Nat → Bool

/-- The `int` field of a response that does not use it (R93, U8). -/
opaque unusedInt : Nat → Nat

/-- The `len` field of a response that does not use it (R93, U8). -/
opaque unusedLen : Nat → BitVec 3

/-- Byte lane `i` (second argument) of `bytes` in a response that does not use it (R93, U8). -/
opaque unusedByte : Nat → Nat → Byte

/-- Cell `i` (second argument) of `BUF` after a step with `rst = 1` (R35, R240, U5). -/
opaque resetCell : Nat → Nat → Byte

/-- `EIDX` after a step with `rst = 1` (R35, R240, U5). Its values are 0, 1 and 2 (R26). -/
opaque resetEidx : Nat → Fin 3

/-- `ASZ` after a step with `rst = 1` (R35, R240, U5). -/
opaque resetAsz : Nat → BitVec 2

end Sys2Proof.Config
end

