-- ==== Sys2Proof/Machine/State.lean ====
section
/-! DEFINITION. The state: the engine's registers (`10_state.md` R20), its pins and response port
(`30_encoding.md` R90), the host it is attached to (`20_memory.md` R50 to R53, `43_host_operations.md`
R201), and the model's own fields (the input schedule, the forced responses, the presented words, the
counter of free values). -/

namespace Sys2Proof.Machine

/-- The sixteen phases (R25). -/
inductive Phase where
  | idle | lTake | lFlush | lSwq | eCnt | ePeek | eSpc1 | ePb
  | eMore | eSpc0 | eUnlp | eUnls | eSpck | eMode | eFlush | halt
  deriving DecidableEq, Repr

/-- The run status `ST` (R29). -/
inductive RunStatus where
  | none | ok | illegal | noSpace
  deriving DecidableEq, Repr

/-- The two exceptions (R210). -/
inductive Exc where
  | illegalChar | noSpace
  deriving DecidableEq, Repr

/-- The four pending-buffer cells (R21). -/
structure Buf where
  c0 : Byte
  c1 : Byte
  c2 : Byte
  c3 : Byte
  deriving DecidableEq, Repr

/-- The engine's registers: the tuple of R20, and nothing else. -/
structure Engine where
  /-- `BUF[0..3]` (R21). -/
  buf : Buf
  /-- `CNT` (R22). -/
  cnt : BitVec 3
  /-- `PH` (R25). -/
  ph : Phase
  /-- `EIDX` (R26). -/
  eidx : BitVec 2
  /-- `ASZ` (R28). -/
  asz : BitVec 2
  /-- `ST` (R29). -/
  st : RunStatus
  /-- `UNL` (R30). -/
  unl : Bool
  /-- `MSW` (R31). -/
  msw : Bool
  /-- `CHEAP` (R32). -/
  cheap : Bool
  deriving DecidableEq, Repr

/-- The response word `HRSP` (R93). Lane `i` of `bytes` is `byte<i>`, bits [8i+7:8i]. `int` is a
natural (R7). -/
structure Hrsp where
  flag : Bool
  int : Nat
  len : BitVec 3
  byte0 : Byte
  byte1 : Byte
  byte2 : Byte
  byte3 : Byte
  deriving DecidableEq, Repr

/-- The input pins (R90) other than `clk` and the response word. -/
structure Pins where
  rst : Bool
  start : Bool
  rspValid : Bool
  deriving DecidableEq, Repr

/-- The host's mode flag (R198, R201). The spec gives the default mode a code and EDIFACT none (R9). -/
inductive HostMode where
  | edifact | default
  deriving DecidableEq, Repr

/-- One answer of a host's capacity state: to `SPACE(n)` while the sink holds `emitted` codewords. -/
structure SpaceRow where
  emitted : Nat
  n : Nat
  answer : Option Nat
  deriving DecidableEq, Repr

/-- The symbol-capacity state (R53, R197): `fixed` is that of the reference host `RH(C)` (R201);
`table` answers from its rows and, where no row applies, freely (L2). -/
inductive Capacity where
  | fixed (c : Option Nat)
  | table (rows : List SpaceRow)
  deriving DecidableEq, Repr

/-- The host as the engine sees it (R33 a, R51 to R53, R201). -/
structure HostCtx where
  /-- The overall input (R51). -/
  inp : List Byte
  /-- The input cursor (R27, R51). -/
  pos : Nat
  /-- The output sink (R52). -/
  out : List Byte
  /-- The mode flag (R198). -/
  mode : HostMode
  /-- The capacity state (R53). -/
  cap : Capacity
  /-- The answers to successive `SWITCHQ` calls (R201). -/
  sw : List Bool
  /-- The answer once `sw` is used up; `none` is a free draw (R199). -/
  swRest : Option Bool
  deriving DecidableEq, Repr

/-- What the `AsciiSize` input of the block is tied to (R8): the free parameter, or the reference
function of `93_implementation_defined.md` G2. -/
inductive SizeFn where
  | param | reference
  deriving DecidableEq, Repr

/-- What the outside does in one step: the levels of the pins, and, between runs, what the host makes
of its own state (R10, L3). -/
structure Sample where
  pins : Pins
  hostAct : Option HostCtx
  deriving DecidableEq, Repr

/-- The machine: engine, pins, response port and host, and the model's own fields. -/
structure State extends Engine where
  /-- The pins as sampled in the current step (R90). -/
  pins : Pins
  /-- The response word last delivered on the port (R93). -/
  hrsp : Hrsp
  /-- The host (R33 a). -/
  host : HostCtx
  /-- The size function attached to the block (R8). -/
  sizeFn : SizeFn
  /-- The model's own: what the outside does in the coming steps, next first; nothing when used up. -/
  inputs : List Sample
  /-- The model's own: response words that arrive in the place of the host's own answers (R245). -/
  forced : List Hrsp
  /-- The model's own: words presented from outside, next first, and the `EMIT`s still to come of a
  packing form (R98); while there is one, the step runs the first in the place of `PH`. -/
  presented : List TableWord
  /-- The model's own: the counter that free values are drawn by. -/
  draws : Nat
  deriving DecidableEq, Repr

/-- Why the machine stops with a fault. No run from `START` reaches one. -/
inductive Fault where
  /-- `CNT` is outside the operand range of the phase: `L_TAKE` (0..3), `E_PB` (0..3), `E_SPCK` (0..3),
  `E_PEEK` (0..4), `L_FLUSH` and `E_FLUSH` (1..4). Also a character class at `CNT` over 3. The cell
  `BUF[CNT]` or the form does not exist (R21, R127, U16). Safe. -/
  | pendingCountOutOfRange
  /-- `EIDX` is not below `NCW(CNT)` in `L_FLUSH` or `E_FLUSH`: the codeword is not defined (R125).
  Safe. -/
  | codewordIndexOutOfRange
  deriving DecidableEq, Repr

/-- Why an operation has no meaning. -/
inductive Refusal where
  /-- Raised by an arm of `exec` whose instruction has no meaning yet. Safe. -/
  | notModelled (mnemonic : String)
  /-- Raised by the command codes 10 to 15, which R95 (c) reserves and gives no effect. Safe. -/
  | reservedCommand (op : BitVec 4)
  /-- Raised by `SETMODE` with a mode other than `MODE_DEFAULT`, which R95 (e) excludes (U19). Safe. -/
  | setmodeOtherMode (mode : BitVec 3)
  /-- Raised by `step` on a presented word that its channel rejects. Safe. -/
  | undecodable (e : DecodeError)
  deriving DecidableEq, Repr

/-- The pins of a step in which nothing is asked of the engine and the host answers (H1). -/
def Pins.quiet : Pins := ⟨false, false, true⟩

/-- The machine right after reset. R35: `PH = IDLE`, `CNT = 0`, `ST = ST_NONE`, the flags 0. The values
of `BUF`, `EIDX`, `ASZ` and of everything outside the engine are the model's: log entries 4 and 5. -/
def State.reset : State where
  buf := ⟨0, 0, 0, 0⟩
  cnt := 0
  ph := .idle
  eidx := 0
  asz := 0
  st := .none
  unl := false
  msw := false
  cheap := false
  pins := Pins.quiet
  hrsp := ⟨false, 0, 0, 0, 0, 0, 0⟩
  host := ⟨[], 0, [], .edifact, .table [], [], none⟩
  sizeFn := .param
  inputs := []
  forced := []
  presented := []
  draws := 0

end Sys2Proof.Machine
end

