-- ==== Sys2Proof/Machine/Operands.lean ====
section
/-! DEFINITION. Operand forms: the characters (`30_encoding.md` R81 to R83), the packing functions
(`40_packing.md` R120 to R131), the fields of the response word (R93), the tail of the cheap-finish
check (`42_end_of_segment.md` R162) and the command word of a phase (R94). -/

namespace Sys2Proof.Machine

/-! ### Phases -/

/-- The code of a phase (R25). -/
def Phase.code : Phase → BitVec 4
  | .idle => 0
  | .lTake => 1
  | .lFlush => 2
  | .lSwq => 3
  | .eCnt => 4
  | .ePeek => 5
  | .eSpc1 => 6
  | .ePb => 7
  | .eMore => 8
  | .eSpc0 => 9
  | .eUnlp => 10
  | .eUnls => 11
  | .eSpck => 12
  | .eMode => 13
  | .eFlush => 14
  | .halt => 15

/-- The phase of a code (R25). -/
def Phase.ofCode (code : BitVec 4) : Phase :=
  match code.toNat with
  | 0 => .idle
  | 1 => .lTake
  | 2 => .lFlush
  | 3 => .lSwq
  | 4 => .eCnt
  | 5 => .ePeek
  | 6 => .eSpc1
  | 7 => .ePb
  | 8 => .eMore
  | 9 => .eSpc0
  | 10 => .eUnlp
  | 11 => .eUnls
  | 12 => .eSpck
  | 13 => .eMode
  | 14 => .eFlush
  | _ => .halt

/-- `BUSY` (R34): neither `IDLE` nor `HALT`. -/
def Phase.busy : Phase → Bool
  | .idle => false
  | .halt => false
  | _ => true

/-- `DECLINE` (R175). -/
def decline (cnt : BitVec 3) : Phase := if cnt = 0 then .eMore else .eSpck

/-! ### Characters -/

/-- `ENCODABLE(c)` (R81). -/
def encodable (c : Byte) : Bool := decide (Config.encLo ≤ c.toNat) && decide (c.toNat ≤ Config.encHi)

/-- The value of a character: its low six bits (R82). -/
def valueOf (c : Byte) : Value := c.extractLsb' 0 6

/-- The character of a value other than 31 (R83). -/
def charOf (v : Value) : Byte := if 32 ≤ v.toNat then v.setWidth 8 else v.setWidth 8 + 64

/-- `UNLATCH` as a byte, `0x1F` (R169). -/
def unlatchByte : Byte := Config.unlatch.setWidth 8

/-- The unlatch codeword `UNLATCH << 2`, `0x7C` (R89). -/
def unlatchCodeword : Byte := unlatchByte <<< 2

/-! ### The pending buffer -/

/-- `BUF[i]`, `i` in 0..3 (R14). No operation reads another index (R24). -/
def Buf.get (b : Buf) : Nat → Byte
  | 0 => b.c0
  | 1 => b.c1
  | 2 => b.c2
  | 3 => b.c3
  | _ => 0

/-- `BUF[i] <- c`, `i` in 0..3 (R14). No operation writes another index. -/
def Buf.set (b : Buf) (i : Nat) (c : Byte) : Buf :=
  match i with
  | 0 => { b with c0 := c }
  | 1 => { b with c1 := c }
  | 2 => { b with c2 := c }
  | 3 => { b with c3 := c }
  | _ => b

/-- The cells as a list, oldest first. -/
def Buf.cells (b : Buf) : List Byte := [b.c0, b.c1, b.c2, b.c3]

/-- `BUF[0], .., BUF[CNT-1]` (R22). -/
def Buf.pending (b : Buf) (cnt : Nat) : List Byte := b.cells.take cnt

/-! ### Packing -/

/-- `VAL(i, k)` (R120): the low six bits of a supplied cell, zero at or beyond the count. -/
def Buf.val (b : Buf) (i k : Nat) : Value := if i < k then valueOf (b.get i) else 0

/-- Layout `CW0` (R85): `v0[5:0] ++ v1[5:4]`. -/
def layout0 (v0 v1 : Value) : Byte := v0 ++ v1.extractLsb' 4 2

/-- Layout `CW1` (R86): `v1[3:0] ++ v2[5:2]`. -/
def layout1 (v1 v2 : Value) : Byte := v1.extractLsb' 0 4 ++ v2.extractLsb' 2 4

/-- Layout `CW2` (R87): `v2[1:0] ++ v3[5:0]`. -/
def layout2 (v2 v3 : Value) : Byte := v2.extractLsb' 0 2 ++ v3

/-- `CW(i, k)` (R125), for `k` in 1..4 and `i` below `NCW(k)`. It is total; what it gives elsewhere reaches
the output `HCMD` only. DESIGN CHOICE (log entry 23). -/
def Buf.cw (b : Buf) (i k : Nat) : Byte :=
  match i with
  | 0 => layout0 (b.val 0 k) (b.val 1 k)
  | 1 => layout1 (b.val 1 k) (b.val 2 k)
  | _ => layout2 (b.val 2 k) (b.val 3 k)

/-- `NCW(k)` (R126), `k` in 1..4. -/
def ncw (k : Nat) : Nat := min k 3

/-- `UNPACK` (R130). -/
def unpack (c0 c1 c2 : Byte) : List Value :=
  [c0.extractLsb' 2 6, c0.extractLsb' 0 2 ++ c1.extractLsb' 4 4,
    c1.extractLsb' 0 4 ++ c2.extractLsb' 6 2, c2.extractLsb' 0 6]

/-! ### The response word -/

/-- `bytes[31:0]` of the response word (R93). -/
def Hrsp.bytes (r : Hrsp) : BitVec 32 := r.byte3 ++ r.byte2 ++ r.byte1 ++ r.byte0

/-- The answer of `TAKE` (R93): `bytes[7:0]` when `flag = 1`. -/
def Hrsp.char? (r : Hrsp) : Option Byte := if r.flag then some r.byte0 else none

/-- The answer of `SPACE` (R93): `int` when `flag = 1`. -/
def Hrsp.space? (r : Hrsp) : Option Nat := if r.flag then some r.int else none

/-- The first `m` characters of a `PEEK` answer, `m` at most 4 (R93). -/
def Hrsp.preview (r : Hrsp) (m : Nat) : List Byte := [r.byte0, r.byte1, r.byte2, r.byte3].take m

/-! ### The default-mode size of a tail -/

/-- A digit character of G2. -/
def isDigit (c : Byte) : Bool := decide (0x30 ≤ c.toNat) && decide (c.toNat ≤ 0x39)

/-- What one byte costs on its own in G2. -/
def asciiCost (c : Byte) : Nat := if c.toNat < 128 then 1 else 2

/-- `AsciiSizeRef` (`93_implementation_defined.md` G2): not normative, for replaying the vectors. -/
def asciiSizeRef : List Byte → Nat
  | [] => 0
  | [c] => asciiCost c
  | c1 :: c2 :: t =>
    if isDigit c1 && isDigit c2 then 1 + asciiSizeRef t else asciiCost c1 + asciiSizeRef (c2 :: t)

/-- `AsciiSize` (R8) as attached to the block. -/
def SizeFn.size : SizeFn → List Byte → Nat
  | .param, t => Config.asciiSize t
  | .reference, t => asciiSizeRef t

/-- The tail of `E_PEEK` (R162): the pending characters, then the previewed ones, at most 4 in all. -/
def tail (b : Buf) (cnt : BitVec 3) (r : Hrsp) : List Byte :=
  b.pending cnt.toNat ++ r.preview (min r.len.toNat (4 - cnt.toNat))

/-! ### The command word -/

/-- The host command the engine presents, by phase (R25, R94); `NOP` where it presents none (R190). In a
flush phase whose codeword is not defined (R125, R126) it is `EMIT` of the total `Buf.cw`, and in `E_PB`
and `E_SPCK` with `CNT` over 3 it carries the low two bits of `CNT`. DESIGN CHOICE (log entry 23). -/
def Engine.command (e : Engine) : Instr :=
  match e.ph with
  | .idle => .nop
  | .lTake => .take
  | .lFlush => .emit (e.buf.cw e.eidx.toNat e.cnt.toNat)
  | .lSwq => .switchq
  | .eCnt => .count
  | .ePeek => .peek
  | .eSpc1 => .space e.asz
  | .ePb => .pushback (e.cnt.setWidth 2)
  | .eMore => .more
  | .eSpc0 => .space 0
  | .eUnlp => .emit unlatchCodeword
  | .eUnls => .emit unlatchCodeword
  | .eSpck => .space (e.cnt.setWidth 2)
  | .eMode => .setmode Config.modeDefault
  | .eFlush => .emit (e.buf.cw e.eidx.toNat e.cnt.toNat)
  | .halt => .nop

/-- The output `HCMD` (R90, R91). -/
def Engine.hcmd (e : Engine) : BitVec 12 := (encode e.command).bits.extractLsb' 0 12

/-- The output `cmd_valid` (R90). -/
def Engine.cmdValid (e : Engine) : Bool := e.ph.busy

end Sys2Proof.Machine
end

