-- ==== Sys2Proof/Machine/Flags.lean ====
section
/-! DEFINITION. The status and flags (`10_state.md` R29 to R34, R38): their codes, the `STATUS` view,
and the writes the operation rules make. -/

namespace Sys2Proof.Machine

/-- The code of `ST` (R29). -/
def RunStatus.code : RunStatus → BitVec 2
  | .none => 0
  | .ok => 1
  | .illegal => 2
  | .noSpace => 3

/-- The status an exception leaves (R210). -/
def Exc.status : Exc → RunStatus
  | .illegalChar => .illegal
  | .noSpace => .noSpace

/-- One bit of the `STATUS` view. -/
def bit (b : Bool) : BitVec 1 := if b then 1 else 0

/-- The `STATUS` view (R34): `BUSY`, `DONE`, `ST`, `UNL`, `MSW`, `CHEAP`, 0, from bit 7 down. -/
def Engine.status (e : Engine) : BitVec 8 :=
  bit e.ph.busy ++ bit (e.ph == .halt) ++ e.st.code ++ bit e.unl ++ bit e.msw ++ bit e.cheap ++ 0#1

/-- `ST`, `UNL`, `MSW` and `CHEAP` as `START` and reset leave them (R35). -/
def State.clearStatus (s : State) : State :=
  { s with st := .none, unl := false, msw := false, cheap := false }

/-- `UNL <- 1` (R30). -/
def State.setUnl (s : State) : State := { s with unl := true }

/-- `MSW <- 1` (R31). -/
def State.setMsw (s : State) : State := { s with msw := true }

/-- `CHEAP <- 1` (R32). -/
def State.setCheap (s : State) : State := { s with cheap := true }

end Sys2Proof.Machine
end

