-- ==== Sys2Proof/Machine/Ops.lean ====
section
/-! DEFINITION. The operations the meanings share: the host's side of each command
(`43_host_operations.md` R190 to R199), the pending buffer, taking an exception (`60_exceptions.md`
R216) and leaving `HALT` (R140, R217), the end of a run, reset (`70_reset_and_hazards.md` R240), and
what a step fetches. -/

namespace Sys2Proof.Machine

/-! ### The response port -/

/-- A response word of which no field has been driven: draw `n`. Fields an operation does not use may
hold anything (R93, U8). -/
def freeRsp (n : Nat) : Hrsp where
  flag := Config.unusedFlag n
  int := Config.unusedInt n
  len := Config.unusedLen n
  byte0 := Config.unusedByte n 0
  byte1 := Config.unusedByte n 1
  byte2 := Config.unusedByte n 2
  byte3 := Config.unusedByte n 3

/-- The response of a command arrives on the port: the host's own, or the next forced word in its
place (R200, R245). -/
def State.deliver (s : State) (own : Hrsp) : State :=
  { s with hrsp := s.forced.headD own, forced := s.forced.tail, draws := s.draws + 1 }

/-! ### The host's side of the commands -/

/-- The unconsumed characters `inp[pos..L-1]` (R51); none where the cursor lies beyond the input. DESIGN
CHOICE (log entry 24). -/
def HostCtx.unread (h : HostCtx) : List Byte := h.inp.drop h.pos

/-- What `SPACE(n)` answers (R197; `fixed` is R201's host). -/
def HostCtx.spaceFor (h : HostCtx) (n : Nat) : Option Nat :=
  match h.cap with
  | .fixed none => none
  | .fixed (some c) => if h.out.length + n ≤ c then some (c - h.out.length - n) else none
  | .table rows =>
    match rows.find? (fun r => r.emitted == h.out.length && r.n == n) with
    | some r => r.answer
    | none => Config.spaceAnswer h.out n

/-- What `SWITCHQ` answers at draw `n` (R199, R201). -/
def HostCtx.switchFor (h : HostCtx) (n : Nat) : Bool :=
  match h.sw with
  | b :: _ => b
  | [] => h.swRest.getD (Config.switchAnswer n)

/-- Where the cursor stands after `PUSHBACK(n)` at draw `draw` (R195). Beyond what was taken the spec
states no position (N16): a free one within the input (R51). Log entry 11. -/
def HostCtx.posAfterPushback (h : HostCtx) (n draw : Nat) : Nat :=
  if n ≤ h.pos then h.pos - n else min (Config.pushbackPos draw) h.inp.length

/-- `TAKE` (R191). -/
def State.hostTake (s : State) : State :=
  match s.host.unread with
  | c :: _ =>
    { s with host := { s.host with pos := s.host.pos + 1 } }.deliver
      { freeRsp s.draws with flag := true, byte0 := c }
  | [] => s.deliver { freeRsp s.draws with flag := false }

/-- `COUNT` (R192). Where the cursor lies beyond the input, which R51 excludes, the answer is 0. DESIGN
CHOICE (log entry 24). -/
def State.hostCount (s : State) : State :=
  s.deliver { freeRsp s.draws with int := s.host.inp.length - s.host.pos }

/-- `PEEK` (R193): the first four unconsumed characters; the lanes beyond `len` are not driven. Where the
cursor lies beyond the input, which R51 excludes, `len` is 0. DESIGN CHOICE (log entry 24). -/
def State.hostPeek (s : State) : State :=
  let u := s.host.unread.take 4
  let r := freeRsp s.draws
  s.deliver
    { r with
      len := BitVec.ofNat 3 u.length
      byte0 := u.getD 0 r.byte0
      byte1 := u.getD 1 r.byte1
      byte2 := u.getD 2 r.byte2
      byte3 := u.getD 3 r.byte3 }

/-- `MORE` (R194). -/
def State.hostMore (s : State) : State :=
  s.deliver { freeRsp s.draws with flag := decide (s.host.pos < s.host.inp.length) }

/-- `PUSHBACK(n)` (R195). -/
def State.hostPushback (s : State) (n : Nat) : State :=
  { s with host := { s.host with pos := s.host.posAfterPushback n s.draws } }.deliver (freeRsp s.draws)

/-- `EMIT b` (R196). -/
def State.hostEmit (s : State) (b : Byte) : State :=
  { s with host := { s.host with out := s.host.out ++ [b] } }.deliver (freeRsp s.draws)

/-- `SPACE(n)` (R197). -/
def State.hostSpace (s : State) (n : Nat) : State :=
  let r := freeRsp s.draws
  let a := s.host.spaceFor n
  s.deliver { r with flag := a.isSome, int := a.getD r.int }

/-- `SETMODE(MODE_DEFAULT)` (R198). -/
def State.hostSetMode (s : State) : State :=
  { s with host := { s.host with mode := .default } }.deliver (freeRsp s.draws)

/-- `SWITCHQ` (R199). -/
def State.hostSwitchq (s : State) : State :=
  { s with host := { s.host with sw := s.host.sw.tail } }.deliver
    { freeRsp s.draws with flag := s.host.switchFor s.draws }

/-- A sequence of `EMIT`s in ascending index (R55, R98), one command a step (R11): the first is performed
in this step, and the others are presented to the steps that follow. -/
def State.beginEmits (s : State) : List Byte → State
  | [] => s
  | b :: t => { s.hostEmit b with presented := t.map (fun c => encode (.emit c)) ++ s.presented }

/-! ### Exceptions and the ends of a run -/

/-- Exception entry, the whole of it (R216). -/
def State.takeException (s : State) (e : Exc) : State :=
  { s with st := e.status, cnt := 0, ph := .halt }

/-- A successful end of the run; every entry to `HALT` leaves `CNT = 0` (R29, R37). -/
def State.finishOk (s : State) : State := { s with st := .ok, cnt := 0, ph := .halt }

/-- `START` (R140). There is no return from an exception: this is the only way out of `HALT` (R217). -/
def State.startRun (s : State) : State := { s.clearStatus with cnt := 0, ph := .lTake }

/-- Go to a phase. -/
def State.goto (s : State) (p : Phase) : State := { s with ph := p }

/-- Enter a flush phase at its first codeword (R26). -/
def State.enterFlush (s : State) (p : Phase) : State := { s with eidx := 0, ph := p }

/-! ### The pending buffer -/

/-- `BUF[CNT] <- c; CNT <- CNT + 1` (R21, R22), for `CNT` at most 3. -/
def State.push (s : State) (c : Byte) : State :=
  { s with buf := s.buf.set s.cnt.toNat c, cnt := s.cnt + 1 }

/-- An encodable character in `L_TAKE` (R142). -/
def State.acceptChar (s : State) (c : Byte) : State :=
  if s.cnt + 1 = 4 then (s.push c).enterFlush .lFlush else (s.push c).goto .lTake

/-- A character in `L_TAKE`, encodable or not (R142). -/
def State.receiveChar (s : State) (c : Byte) : State :=
  if encodable c then s.acceptChar c else s.takeException .illegalChar

/-- A character class as an operation: `k` on a state that has the cell `BUF[CNT]`. -/
def withFreeCell (s : State) (t : State) : Host.Outcome State Fault Refusal :=
  if s.cnt.toNat ≤ 3 then .next t else .fault .pendingCountOutOfRange

/-- One flush step (R144, R171): emit `CW(EIDX, CNT)`; after the last codeword go on as `last` says. -/
def flushStep (self : Phase) (last : State → State) (s : State) : Host.Outcome State Fault Refusal :=
  if s.cnt = 0 ∨ 4 < s.cnt.toNat then .fault .pendingCountOutOfRange
  else if ncw s.cnt.toNat ≤ s.eidx.toNat then .fault .codewordIndexOutOfRange
  else
    let s1 := s.hostEmit (s.buf.cw s.eidx.toNat s.cnt.toNat)
    .next (if s.eidx.toNat = ncw s.cnt.toNat - 1 then last s1
      else { s1 with eidx := s.eidx + 1, ph := self })

/-! ### Reset, sampling and fetch -/

/-- A step with `rst = 1` (R240): the reset column of R35, with `BUF`, `EIDX` and `ASZ` free; the host
keeps what it has (R241). -/
def State.resetEngine (s : State) : State :=
  { s.clearStatus with
    ph := .idle
    cnt := 0
    buf := ⟨Config.resetCell s.draws 0, Config.resetCell s.draws 1, Config.resetCell s.draws 2,
      Config.resetCell s.draws 3⟩
    eidx := BitVec.ofNat 2 (Config.resetEidx s.draws).val
    asz := Config.resetAsz s.draws
    presented := []
    draws := s.draws + 1 }

/-- What the outside does in this step. -/
def State.nextSample (s : State) : Sample := s.inputs.headD ⟨Pins.quiet, none⟩

/-- Sample the pins; between runs the host may have changed its own state (R10, L3), during a run it
may not (H2). -/
def State.sample (s : State) : State :=
  { s with
    pins := s.nextSample.pins
    inputs := s.inputs.tail
    host := if s.ph.busy then s.host else s.nextSample.hostAct.getD s.host }

/-- The engine presents a command and the host has not answered yet (R90, R221). The handshake is that of a
phase: a command run as a presented word does not wait. DESIGN CHOICE (log entry 22). -/
def State.waiting (s : State) : Bool :=
  s.presented.isEmpty && s.cmdValid && !s.pins.rspValid

/-- The word the step runs: the first presented word, the `start` pin sampled as 1 in `IDLE` or
`HALT` (R140), or the code in `PH` (R25). -/
def State.fetch (s : State) : TableWord :=
  match s.presented with
  | w :: _ => w
  | [] => if s.pins.start && !s.ph.busy then ⟨.pin, 1⟩ else phaseWord s.ph.code

/-- The state the fetched operation runs on: a presented word is used once. -/
def State.fetched (s : State) : State := { s with presented := s.presented.tail }

end Sys2Proof.Machine
end

