-- ==== Sys2Proof/Machine/Characters.lean ====
section
/-! DEFINITION. The character classes as operations (`30_encoding.md` R81): what `L_TAKE` does with a
character of the class once `TAKE` has answered it (`41_consume_loop.md` R142). An encodable class
accumulates, an illegal one raises `IllegalChar`. -/

namespace Sys2Proof.Machine

/-- An encodable character: the cell `BUF[CNT]` must exist (R146). -/
def acceptClass (c : Byte) (s : State) : Host.Outcome State Fault Refusal :=
  withFreeCell s (s.acceptChar c)

/-- An illegal character (R211). -/
def rejectClass (s : State) : Host.Outcome State Fault Refusal := .next (s.takeException .illegalChar)

/-- `CH_UNL` (R81): 95, illegal. -/
def execChUnl (s : State) : Host.Outcome State Fault Refusal := rejectClass s

/-- `CH_LOW` (R81): 0..31, illegal. -/
def execChLow (_x : BitVec 5) (s : State) : Host.Outcome State Fault Refusal := rejectClass s

/-- `CH_A` (R81): 32..63, encodable. -/
def execChA (x : BitVec 5) (s : State) : Host.Outcome State Fault Refusal :=
  acceptClass (0b001#3 ++ x) s

/-- `CH_B`, 64..79 (R81): encodable. -/
def execChB40 (x : BitVec 4) (s : State) : Host.Outcome State Fault Refusal :=
  acceptClass (0b0100#4 ++ x) s

/-- `CH_B`, 80..87 (R81): encodable. -/
def execChB50 (x : BitVec 3) (s : State) : Host.Outcome State Fault Refusal :=
  acceptClass (0b01010#5 ++ x) s

/-- `CH_B`, 88..91 (R81): encodable. -/
def execChB58 (x : BitVec 2) (s : State) : Host.Outcome State Fault Refusal :=
  acceptClass (0b010110#6 ++ x) s

/-- `CH_B`, 92..93 (R81): encodable. -/
def execChB5C (x : BitVec 1) (s : State) : Host.Outcome State Fault Refusal :=
  acceptClass (0b0101110#7 ++ x) s

/-- `CH_B`, 94 (R81): encodable. -/
def execChB5E (s : State) : Host.Outcome State Fault Refusal := acceptClass 0x5E s

/-- `CH_HI1` (R81): 96..127, illegal. -/
def execChHi1 (_x : BitVec 5) (s : State) : Host.Outcome State Fault Refusal := rejectClass s

/-- `CH_HI2` (R81): 128..255, illegal. -/
def execChHi2 (_x : BitVec 7) (s : State) : Host.Outcome State Fault Refusal := rejectClass s

end Sys2Proof.Machine
end

