-- ==== Sys2Proof/Machine/Codewords.lean ====
section
/-! DEFINITION. The codeword layouts and the packing forms as operations (`30_encoding.md` R85 to R89,
`40_packing.md` R121 to R124): the `EMIT` of a codeword of that layout, and the `EMIT`s of a form in
ascending index. The operands are the values of the word, `VAL(j, k)` of the buffer when the engine
flushes. No register of the engine is written (R127). -/

namespace Sys2Proof.Machine

/-- Layout `CW0` (R85): `a = v0[5:0]`, `b = v1[5:4]`. -/
def execCw0 (a : BitVec 6) (b : BitVec 2) (s : State) : Host.Outcome State Fault Refusal :=
  .next (s.hostEmit (a ++ b))

/-- Layout `CW1` (R86): `b = v1[3:0]`, `c = v2[5:2]`. -/
def execCw1 (b c : BitVec 4) (s : State) : Host.Outcome State Fault Refusal :=
  .next (s.hostEmit (b ++ c))

/-- Layout `CW2` (R87): `c = v2[1:0]`, `d = v3[5:0]`. -/
def execCw2 (c : BitVec 2) (d : BitVec 6) (s : State) : Host.Outcome State Fault Refusal :=
  .next (s.hostEmit (c ++ d))

/-- The unlatch codeword (R89, R98): `EMIT 0x7C`. -/
def execUnlatchcw (s : State) : Host.Outcome State Fault Refusal := .next (s.hostEmit unlatchCodeword)

/-- The codewords of `PACKk` of the values in the cells (R98, R126): `CW(0,k)` to `CW(NCW(k)-1, k)`. -/
def packForm (b : Buf) (k : Nat) : List Byte := (List.range (ncw k)).map (fun i => b.cw i k)

/-- Cells that hold values (R131). -/
def cellsOf (v0 v1 v2 v3 : Value) : Buf :=
  ⟨v0.setWidth 8, v1.setWidth 8, v2.setWidth 8, v3.setWidth 8⟩

/-- `PACK4` (R121). -/
def execPack4 (a b c d : Value) (s : State) : Host.Outcome State Fault Refusal :=
  .next (s.beginEmits (packForm (cellsOf a b c d) 4))

/-- `PACK3` (R122): `v3` is read as 0. -/
def execPack3 (a b c : Value) (s : State) : Host.Outcome State Fault Refusal :=
  .next (s.beginEmits (packForm (cellsOf a b c 0) 3))

/-- `PACK2` (R123): `v2` and `v3` are read as 0. -/
def execPack2 (a b : Value) (s : State) : Host.Outcome State Fault Refusal :=
  .next (s.beginEmits (packForm (cellsOf a b 0 0) 2))

/-- `PACK1` (R124): `v1` to `v3` are read as 0. -/
def execPack1 (a : Value) (s : State) : Host.Outcome State Fault Refusal :=
  .next (s.beginEmits (packForm (cellsOf a 0 0 0) 1))

end Sys2Proof.Machine
end

