-- ==== Sys2Proof/Machine/EndSegment.lean ====
section
/-! DEFINITION. End-of-segment handling, the latch/unlatch controller (`42_end_of_segment.md`). -/

namespace Sys2Proof.Machine

/-- `E_CNT` (R161): the two counts are added as naturals. -/
def execECnt (s : State) : Host.Outcome State Fault Refusal :=
  let s1 := s.hostCount
  let rest := s.cnt.toNat + s1.hrsp.int
  .next (s1.goto (if 0 < rest ∧ rest ≤ 4 then .ePeek else decline s.cnt))

/-- `E_PEEK` (R162). -/
def execEPeek (s : State) : Host.Outcome State Fault Refusal :=
  if 4 < s.cnt.toNat then .fault .pendingCountOutOfRange
  else
    let s1 := s.hostPeek
    let a := s.sizeFn.size (tail s.buf s.cnt s1.hrsp)
    .next
      { s1 with
        asz := BitVec.ofNat 2 (min a 3)
        ph := if a ≤ 2 then .eSpc1 else decline s.cnt }

/-- `E_SPC1` (R163): both comparisons are against the answer of the query (`90_conflicts.md` C4). -/
def execESpc1 (s : State) : Host.Outcome State Fault Refusal :=
  let s1 := s.hostSpace s.asz.toNat
  .next
    (match s1.hrsp.space? with
    | none => s1.takeException .noSpace
    | some n => s1.goto (if n ≤ 2 ∧ s.asz.toNat ≤ n then .ePb else decline s.cnt))

/-- `E_PB` (R164). -/
def execEPb (s : State) : Host.Outcome State Fault Refusal :=
  if 3 < s.cnt.toNat then .fault .pendingCountOutOfRange
  else .next { (s.hostPushback s.cnt.toNat).setCheap with cnt := 0, ph := .eMode }

/-- `E_MORE` (R165). -/
def execEMore (s : State) : Host.Outcome State Fault Refusal :=
  let s1 := s.hostMore
  .next (s1.goto (if s1.hrsp.flag then .eUnls else .eSpc0))

/-- `E_SPC0` (R166). -/
def execESpc0 (s : State) : Host.Outcome State Fault Refusal :=
  let s1 := s.hostSpace 0
  .next
    (match s1.hrsp.space? with
    | none => s1.takeException .noSpace
    | some n => if 0 < n then s1.goto .eUnlp else s1.finishOk)

/-- `E_UNLP` (R167). -/
def execEUnlp (s : State) : Host.Outcome State Fault Refusal :=
  .next ((s.hostEmit unlatchCodeword).setUnl.goto .eMode)

/-- `E_UNLS` (R168). -/
def execEUnls (s : State) : Host.Outcome State Fault Refusal :=
  .next (s.hostEmit unlatchCodeword).setUnl.finishOk

/-- `E_SPCK` (R169). -/
def execESpck (s : State) : Host.Outcome State Fault Refusal :=
  let s1 := s.hostSpace s.cnt.toNat
  withFreeCell s
    (match s1.hrsp.space? with
    | none => s1.takeException .noSpace
    | some n =>
      if 0 < n ∨ s.cnt = 3 then (s1.push unlatchByte).setUnl.goto .eMode
      else s1.enterFlush .eFlush)

/-- `E_MODE` (R170). -/
def execEMode (s : State) : Host.Outcome State Fault Refusal :=
  let s1 := s.hostSetMode.setMsw
  .next (if 0 < s.cnt.toNat then s1.enterFlush .eFlush else s1.finishOk)

/-- `E_FLUSH` (R171). -/
def execEFlush (s : State) : Host.Outcome State Fault Refusal :=
  flushStep .eFlush State.finishOk s

end Sys2Proof.Machine
end

