-- ==== Sys2Proof/Machine/HostCommands.lean ====
section
/-! DEFINITION. The host commands as operations of their own (`43_host_operations.md`): the host's duty,
with the answer left on the response port. The engine's registers are not touched (R50). -/

namespace Sys2Proof.Machine

/-- `NOP` (R190): the host does nothing and returns nothing. -/
def execNop (s : State) : Host.Outcome State Fault Refusal := .next s

/-- `TAKE` (R191). -/
def execTake (s : State) : Host.Outcome State Fault Refusal := .next s.hostTake

/-- `COUNT` (R192). -/
def execCount (s : State) : Host.Outcome State Fault Refusal := .next s.hostCount

/-- `PEEK` (R193). -/
def execPeek (s : State) : Host.Outcome State Fault Refusal := .next s.hostPeek

/-- `MORE` (R194). -/
def execMore (s : State) : Host.Outcome State Fault Refusal := .next s.hostMore

/-- `PUSHBACK(n)` (R195). -/
def execPushback (n : BitVec 2) (s : State) : Host.Outcome State Fault Refusal :=
  .next (s.hostPushback n.toNat)

/-- `EMIT` (R196). -/
def execEmit (cw : Byte) (s : State) : Host.Outcome State Fault Refusal := .next (s.hostEmit cw)

/-- `SPACE(n)` (R197). -/
def execSpace (n : BitVec 2) (s : State) : Host.Outcome State Fault Refusal :=
  .next (s.hostSpace n.toNat)

/-- `SETMODE(mode)` (R198): no mode but the default one has a meaning (R9, R95 e, U19). -/
def execSetmode (mode : BitVec 3) (s : State) : Host.Outcome State Fault Refusal :=
  if mode = Config.modeDefault then .next s.hostSetMode else .refused (.setmodeOtherMode mode)

/-- `SWITCHQ` (R199). -/
def execSwitchq (s : State) : Host.Outcome State Fault Refusal := .next s.hostSwitchq

/-- A reserved command code (R95 c): "this spec says nothing further". -/
def reservedCommand (op : BitVec 4) : Host.Outcome State Fault Refusal := .refused (.reservedCommand op)

/-- Command code 10 (R95 c). -/
def execReserved10 (_arg : Byte) (_s : State) : Host.Outcome State Fault Refusal := reservedCommand 10

/-- Command code 11 (R95 c). -/
def execReserved11 (_arg : Byte) (_s : State) : Host.Outcome State Fault Refusal := reservedCommand 11

/-- Command code 12 (R95 c). -/
def execReserved12 (_arg : Byte) (_s : State) : Host.Outcome State Fault Refusal := reservedCommand 12

/-- Command code 13 (R95 c). -/
def execReserved13 (_arg : Byte) (_s : State) : Host.Outcome State Fault Refusal := reservedCommand 13

/-- Command code 14 (R95 c). -/
def execReserved14 (_arg : Byte) (_s : State) : Host.Outcome State Fault Refusal := reservedCommand 14

/-- Command code 15 (R95 c). -/
def execReserved15 (_arg : Byte) (_s : State) : Host.Outcome State Fault Refusal := reservedCommand 15

end Sys2Proof.Machine
end

