-- ==== Sys2Proof/Machine/Loop.lean ====
section
/-! DEFINITION. Start, the main consumption loop and halt (`41_consume_loop.md`). -/

namespace Sys2Proof.Machine

/-- `IDLE` (R141). -/
def execIdle (s : State) : Host.Outcome State Fault Refusal :=
  .next (if s.pins.start then s.startRun else s.goto .idle)

/-- `START` (R140): sampled in `IDLE` and `HALT`; in any other phase it is ignored (R244, U18). -/
def execStart (s : State) : Host.Outcome State Fault Refusal :=
  .next (if s.ph.busy then s else s.startRun)

/-- `HALT` (R148). -/
def execHalt (s : State) : Host.Outcome State Fault Refusal :=
  .next (if s.pins.start then s.startRun else s.goto .halt)

/-- `L_TAKE` (R142). -/
def execLTake (s : State) : Host.Outcome State Fault Refusal :=
  let s1 := s.hostTake
  withFreeCell s
    (match s1.hrsp.char? with
    | none => s1.goto .eCnt
    | some c => s1.receiveChar c)

/-- `L_FLUSH` (R144). -/
def execLFlush (s : State) : Host.Outcome State Fault Refusal :=
  flushStep .lFlush (fun t => { t with cnt := 0, ph := .lSwq }) s

/-- `L_SWQ` (R145). -/
def execLSwq (s : State) : Host.Outcome State Fault Refusal :=
  let s1 := s.hostSwitchq
  .next (s1.goto (if s1.hrsp.flag then .eCnt else .lTake))

end Sys2Proof.Machine
end

