-- ==== Sys2Proof/Machine/Dispatch.lean ====
section
/-! DEFINITION. The dispatch: one arm per operation. -/

namespace Sys2Proof.Machine

def exec (i : Instr) (s : State) : Host.Outcome State Fault Refusal :=
  match i with
  | .idle => Sys2Proof.Machine.execIdle s
  | .lTake => Sys2Proof.Machine.execLTake s
  | .lFlush => Sys2Proof.Machine.execLFlush s
  | .lSwq => Sys2Proof.Machine.execLSwq s
  | .eCnt => Sys2Proof.Machine.execECnt s
  | .ePeek => Sys2Proof.Machine.execEPeek s
  | .eSpc1 => Sys2Proof.Machine.execESpc1 s
  | .ePb => Sys2Proof.Machine.execEPb s
  | .eMore => Sys2Proof.Machine.execEMore s
  | .eSpc0 => Sys2Proof.Machine.execESpc0 s
  | .eUnlp => Sys2Proof.Machine.execEUnlp s
  | .eUnls => Sys2Proof.Machine.execEUnls s
  | .eSpck => Sys2Proof.Machine.execESpck s
  | .eMode => Sys2Proof.Machine.execEMode s
  | .eFlush => Sys2Proof.Machine.execEFlush s
  | .halt => Sys2Proof.Machine.execHalt s
  | .start => Sys2Proof.Machine.execStart s
  | .nop => Sys2Proof.Machine.execNop s
  | .take => Sys2Proof.Machine.execTake s
  | .count => Sys2Proof.Machine.execCount s
  | .peek => Sys2Proof.Machine.execPeek s
  | .more => Sys2Proof.Machine.execMore s
  | .pushback n => Sys2Proof.Machine.execPushback n s
  | .emit cw => Sys2Proof.Machine.execEmit cw s
  | .space n => Sys2Proof.Machine.execSpace n s
  | .setmode mode => Sys2Proof.Machine.execSetmode mode s
  | .switchq => Sys2Proof.Machine.execSwitchq s
  | .reserved10 arg => Sys2Proof.Machine.execReserved10 arg s
  | .reserved11 arg => Sys2Proof.Machine.execReserved11 arg s
  | .reserved12 arg => Sys2Proof.Machine.execReserved12 arg s
  | .reserved13 arg => Sys2Proof.Machine.execReserved13 arg s
  | .reserved14 arg => Sys2Proof.Machine.execReserved14 arg s
  | .reserved15 arg => Sys2Proof.Machine.execReserved15 arg s
  | .chUnl => Sys2Proof.Machine.execChUnl s
  | .chLow x => Sys2Proof.Machine.execChLow x s
  | .chA x => Sys2Proof.Machine.execChA x s
  | .chB40 x => Sys2Proof.Machine.execChB40 x s
  | .chB50 x => Sys2Proof.Machine.execChB50 x s
  | .chB58 x => Sys2Proof.Machine.execChB58 x s
  | .chB5C x => Sys2Proof.Machine.execChB5C x s
  | .chB5E => Sys2Proof.Machine.execChB5E s
  | .chHi1 x => Sys2Proof.Machine.execChHi1 x s
  | .chHi2 x => Sys2Proof.Machine.execChHi2 x s
  | .cw0 a b => Sys2Proof.Machine.execCw0 a b s
  | .cw1 b c => Sys2Proof.Machine.execCw1 b c s
  | .cw2 c d => Sys2Proof.Machine.execCw2 c d s
  | .unlatchcw => Sys2Proof.Machine.execUnlatchcw s
  | .pack4 a b c d => Sys2Proof.Machine.execPack4 a b c d s
  | .pack3 a b c => Sys2Proof.Machine.execPack3 a b c s
  | .pack2 a b => Sys2Proof.Machine.execPack2 a b s
  | .pack1 a => Sys2Proof.Machine.execPack1 a s

end Sys2Proof.Machine
end

