-- ==== Sys2Proof/Machine/Step.lean ====
section
/-! DEFINITION. One step (`00_scope.md` R11): sample the pins; `rst` overrides everything (R240); an
unanswered command waits (R90, R221); otherwise run the operation fetched. And the placing of a table
row's word where the next step fetches it. -/

namespace Sys2Proof.Machine

/-- One step of the machine. -/
def step (s : State) : Host.Outcome State Fault Refusal :=
  let s1 := s.sample
  if s1.pins.rst then .next s1.resetEngine
  else if s1.waiting then .next s1
  else
    match decode s1.fetch with
    | .ok i => exec i s1.fetched
    | .error e => .refused (.undecodable e)

/-- The state with a table row's word placed where the next step fetches it: a phase code in `PH`, a
`START` on the `start` pin, any other word as the presented word; the pins are quiet in that step.
Log entries 2 and 3. -/
def State.withFetchWord (s : State) (nbits w : Nat) : State :=
  match tableFormat nbits w with
  | .phase =>
    { s with ph := Phase.ofCode (BitVec.ofNat 4 w), presented := []
             inputs := ⟨Pins.quiet, none⟩ :: s.inputs }
  | .pin =>
    if w = 1 then
      { s with ph := if s.ph.busy then .idle else s.ph, presented := []
               inputs := ⟨{ Pins.quiet with start := true }, none⟩ :: s.inputs }
    else { s with presented := tableWord nbits w :: s.presented, inputs := ⟨Pins.quiet, none⟩ :: s.inputs }
  | _ =>
    { s with presented := tableWord nbits w :: s.presented, inputs := ⟨Pins.quiet, none⟩ :: s.inputs }

end Sys2Proof.Machine
end

