-- ==== Sys2Proof/Safety.lean ====
section
/-! DEFINITION. What counts as a safe run, in the terms the claims use: the end of a run and its
outcome (`00_scope.md` R12, `60_exceptions.md` R218), the invariants of `10_state.md` R22 to R38 and of
`43_host_operations.md` R195, the control-flow graph of `42_end_of_segment.md` R172, the bits a group
stands for (`20_memory.md` R54 to R58), and the bound on the length of a run. -/

namespace Sys2Proof.Machine

/-! ### The end of a run -/

/-- A run is over (R12). -/
def State.ended (s : State) : Prop := s.ph = .halt

/-- A run ended successfully (R29, R218). -/
def State.succeeded (s : State) : Prop := s.ph = .halt ∧ s.st = .ok

/-- A run ended in one of the two faults (R210, R218). -/
def State.faulted (s : State) : Prop := s.ph = .halt ∧ (s.st = .illegal ∨ s.st = .noSpace)

/-! ### The data spaces -/

/-- The engine has no addressed memory (R50). What must hold of the data spaces is that the cursor lies
within the input (R51). -/
abbrev Memory.wf (h : HostCtx) : Prop := h.pos ≤ h.inp.length

/-! ### Invariants of the engine, whatever responses arrive -/

/-- The range of `CNT` by phase (R23, R37, R146, R169 to R171). -/
def Engine.countOk (e : Engine) : Prop :=
  match e.ph with
  | .idle => e.cnt = 0
  | .halt => e.cnt = 0
  | .lSwq => e.cnt = 0
  | .eMore => e.cnt = 0
  | .eSpc0 => e.cnt = 0
  | .eUnlp => e.cnt = 0
  | .eUnls => e.cnt = 0
  | .lTake => e.cnt.toNat ≤ 3
  | .eCnt => e.cnt.toNat ≤ 3
  | .ePeek => e.cnt.toNat ≤ 3
  | .eSpc1 => e.cnt.toNat ≤ 3
  | .ePb => e.cnt.toNat ≤ 3
  | .lFlush => e.cnt = 4
  | .eSpck => 1 ≤ e.cnt.toNat ∧ e.cnt.toNat ≤ 3
  | .eMode => e.cnt = 0 ∨ 2 ≤ e.cnt.toNat ∧ e.cnt.toNat ≤ 4
  | .eFlush => 1 ≤ e.cnt.toNat ∧ e.cnt.toNat ≤ 4

/-- `EIDX` is 0, 1 or 2, and in a flush phase the codeword it names exists (R26, R125); `ASZ` is at most
2 where it is read (R163). -/
def Engine.indexOk (e : Engine) : Prop :=
  e.eidx.toNat ≤ 2 ∧
  (e.ph = .lFlush ∨ e.ph = .eFlush → e.eidx.toNat < ncw e.cnt.toNat) ∧
  (e.ph = .eSpc1 → e.asz.toNat ≤ 2)

/-- The status and flags by phase: none set before the end of a run (R29 to R32), the four exit
dispositions (R38), the flags 0 after an exception (R216). -/
def Engine.flagsOk (e : Engine) : Prop :=
  match e.ph with
  | .halt =>
    (e.st = .ok ∧ (e.unl, e.msw, e.cheap) ∈
      [(true, true, false), (true, false, false), (false, true, true), (false, false, false)]) ∨
    ((e.st = .illegal ∨ e.st = .noSpace) ∧ (e.unl, e.msw, e.cheap) = (false, false, false))
  | .eMode =>
    e.st = .none ∧ e.msw = false ∧
      (e.unl = true ∧ e.cheap = false ∨ e.unl = false ∧ e.cheap = true ∧ e.cnt = 0)
  | .eFlush =>
    e.st = .none ∧ e.cheap = false ∧ e.unl = e.msw ∧
      (e.unl = false → e.cnt.toNat ≤ 2) ∧ (e.unl = true → 2 ≤ e.cnt.toNat)
  | _ => e.st = .none ∧ e.unl = false ∧ e.msw = false ∧ e.cheap = false

/-- The invariant of the engine between two steps of the sequencer. -/
def State.ControlInv (s : State) : Prop :=
  s.presented = [] ∧ s.countOk ∧ s.indexOk ∧ s.flagsOk

/-! ### Invariants with a conforming host -/

/-- The phases in which the pending cells are characters of the input. -/
def Phase.holdsCharacters : Phase → Bool
  | .lTake => true
  | .lFlush => true
  | .eCnt => true
  | .ePeek => true
  | .eSpc1 => true
  | .ePb => true
  | .eSpck => true
  | _ => false

/-- The end-of-segment phases among them. -/
def Phase.afterLoop : Phase → Bool
  | .eCnt => true
  | .ePeek => true
  | .eSpc1 => true
  | .ePb => true
  | .eSpck => true
  | _ => false

/-- The pending cells are the last `CNT` characters taken (R195 b), each of them encodable (R142), and
after the loop characters are pending only when no input is left (R160, R169 e). -/
def State.pendingOk (s : State) : Prop :=
  (s.ph.holdsCharacters = true →
    s.cnt.toNat ≤ s.host.pos ∧
    (s.host.inp.drop (s.host.pos - s.cnt.toNat)).take s.cnt.toNat = s.buf.pending s.cnt.toNat ∧
    ∀ c ∈ s.buf.pending s.cnt.toNat, encodable c = true) ∧
  (s.ph.afterLoop = true → s.cnt ≠ 0 → s.host.pos = s.host.inp.length)

/-- Whatever the host does to its own state between runs, its cursor lies within its input (H7, L3). -/
def scheduleOk (l : List Sample) : Prop := ∀ x ∈ l, ∀ h, x.hostAct = some h → Memory.wf h

/-- The invariant with a host that keeps its duties (R200): it answers for itself, its cursor lies
within the input, now and after whatever it does between runs. -/
def State.HostInv (s : State) : Prop :=
  s.forced = [] ∧ Memory.wf s.host ∧ s.pendingOk ∧ scheduleOk s.inputs

/-! ### The control-flow graph -/

/-- The successor lists of R172. -/
def Phase.successors : Phase → List Phase
  | .idle => [.idle, .lTake]
  | .lTake => [.lTake, .lFlush, .eCnt, .halt]
  | .lFlush => [.lFlush, .lSwq]
  | .lSwq => [.lTake, .eCnt]
  | .eCnt => [.ePeek, .eMore, .eSpck]
  | .ePeek => [.eSpc1, .eMore, .eSpck]
  | .eSpc1 => [.ePb, .eMore, .eSpck, .halt]
  | .ePb => [.eMode]
  | .eMore => [.eUnls, .eSpc0]
  | .eSpc0 => [.eUnlp, .halt]
  | .eUnlp => [.eMode]
  | .eUnls => [.halt]
  | .eSpck => [.eMode, .eFlush, .halt]
  | .eMode => [.eFlush, .halt]
  | .eFlush => [.eFlush, .halt]
  | .halt => [.halt, .lTake]

/-- The status with which a phase may enter `HALT` (R172). -/
def Phase.exits : Phase → List RunStatus
  | .lTake => [.illegal]
  | .eSpc1 => [.noSpace]
  | .eSpc0 => [.ok, .noSpace]
  | .eUnls => [.ok]
  | .eSpck => [.noSpace]
  | .eMode => [.ok]
  | .eFlush => [.ok]
  | _ => []

/-! ### The bits of the output -/

/-- The bits of a word, most significant first (R54). -/
def msbFirst {w : Nat} (x : BitVec w) : List Bool := (List.range w).map x.getMsbD

/-- The bits of a string of codewords (R55). -/
def codewordBits (l : List Byte) : List Bool := l.flatMap msbFirst

/-- The bits of a string of values (R55). -/
def valueBits (l : List Value) : List Bool := l.flatMap msbFirst

/-! ### The length of a run -/

/-- A bound on the steps left in a run, for a host that answers for itself: at most 8 in
end-of-segment handling (R172), and the loop uses up the input. -/
def State.stepsLeft (s : State) : Nat :=
  let rem := s.host.inp.length - s.host.pos
  match s.ph with
  | .idle => 0
  | .halt => 0
  | .lTake => 9 + 6 * rem
  | .lFlush => 10 + 6 * rem + (3 - s.eidx.toNat)
  | .lSwq => 10 + 6 * rem
  | .eCnt => 8
  | .ePeek => 7
  | .eSpc1 => 6
  | .ePb => 2
  | .eMore => 4
  | .eSpc0 => 3
  | .eUnlp => 2
  | .eUnls => 1
  | .eSpck => 5
  | .eMode => 1 + (if s.cnt = 0 then 0 else ncw s.cnt.toNat)
  | .eFlush => ncw s.cnt.toNat - s.eidx.toNat

end Sys2Proof.Machine
end

