-- ==== Sys2Proof/WellFormed.lean ====
section
/-! DEFINITION. Which operations the engine can issue or meet (`30_encoding.md` R95): every row but
the reserved command codes 10 to 15 (R95 c) and `SETMODE` with a mode other than the default one
(R95 e). -/

namespace Sys2Proof

/-- The operation is not reserved by R95. -/
def Instr.wellFormed : Instr → Bool
  | .setmode mode => mode == Config.modeDefault
  | .reserved10 _ => false
  | .reserved11 _ => false
  | .reserved12 _ => false
  | .reserved13 _ => false
  | .reserved14 _ => false
  | .reserved15 _ => false
  | _ => true

end Sys2Proof
end

