-- ==== Sys2Proof/Certificates/Slice0/Obligations.lean ====
section
/-! DEFINITION. The statements about the model. The helpers first: what is left alone by a step, and the
outcome table of end-of-segment handling as one function. A statement about the engine's registers gives
all nine of them in one equation, so that it says the result and the frame at once. -/

namespace Sys2Proof.Machine

/-- The pins, the size function, the input schedule and the presented words are as before. -/
def State.sameOutside (s t : State) : Prop :=
  t.pins = s.pins ∧ t.sizeFn = s.sizeFn ∧ t.inputs = s.inputs ∧ t.presented = s.presented

/-- One command was answered: one response word was delivered, and nothing outside the engine, the host
and the response port changed. -/
def State.answered (s t : State) : Prop :=
  s.sameOutside t ∧ t.forced = s.forced.tail ∧ t.draws = s.draws + 1

/-- `CW(i, k)` by the 8-bit arithmetic of R125, `v0` to `v3` being the values supplied (zero beyond the
count). -/
def codewordBy8BitArithmetic (v0 v1 v2 v3 : Value) : Nat → Byte
  | 0 => (v0.setWidth 8 <<< 2) ||| (v1.setWidth 8 >>> 4)
  | 1 => ((v1.setWidth 8 &&& 0xF) <<< 4) ||| (v2.setWidth 8 >>> 2)
  | _ => ((v2.setWidth 8 &&& 0x3) <<< 6) ||| v3.setWidth 8

/-- The codewords of a final group of `cnt` cells. -/
def finalGroup (b : Buf) (cnt : Nat) : List Byte := (List.range (min cnt 3)).map (fun i => b.cw i cnt)

/-- The outcome of end-of-segment handling, R173 read as one function of the state at `E_CNT`: the host's
state, `ST`, `UNL`, `MSW` and `CHEAP` at the end of the run. -/
def State.segmentOutcome (s : State) : HostCtx × RunStatus × Bool × Bool × Bool :=
  let c := s.cnt.toNat
  let r := s.host.inp.length - s.host.pos
  let a := s.sizeFn.size (s.buf.pending c ++ s.host.unread)
  let switched (out : List Byte) : HostCtx := { s.host with out := s.host.out ++ out, mode := .default }
  let unlatched : HostCtx := { s.host with out := s.host.out ++ [0x7C] }
  let marked := s.buf.set c 0x1F
  let declined : HostCtx × RunStatus × Bool × Bool × Bool :=
    if c = 0 then
      if 0 < r then (unlatched, .ok, true, false, false)
      else
        match s.host.spaceFor 0 with
        | none => (s.host, .noSpace, false, false, false)
        | some 0 => (s.host, .ok, false, false, false)
        | some _ => (switched [0x7C], .ok, true, true, false)
    else
      match s.host.spaceFor c with
      | none => (s.host, .noSpace, false, false, false)
      | some n =>
        if 0 < n ∨ c = 3 then (switched (finalGroup marked (c + 1)), .ok, true, true, false)
        else ({ s.host with out := s.host.out ++ finalGroup s.buf c }, .ok, false, false, false)
  if 0 < c + r ∧ c + r ≤ 4 ∧ a ≤ 2 then
    match s.host.spaceFor a with
    | none => (s.host, .noSpace, false, false, false)
    | some n =>
      if n ≤ 2 ∧ a ≤ n then
        ({ s.host with pos := s.host.pos - c, mode := .default }, .ok, false, true, true)
      else declined
  else declined

/-- Two engines that differ at most where R24, R26 and R28 say nothing is read: the cells at or beyond
`CNT`, `EIDX` outside the flush phases, `ASZ` outside `E_SPC1`. -/
def Engine.agrees (e f : Engine) : Prop :=
  e.cnt = f.cnt ∧ e.ph = f.ph ∧ e.st = f.st ∧ e.unl = f.unl ∧ e.msw = f.msw ∧ e.cheap = f.cheap ∧
  (∀ i, i < e.cnt.toNat → e.buf.get i = f.buf.get i) ∧
  (e.ph = .lFlush ∨ e.ph = .eFlush → e.eidx = f.eidx) ∧
  (e.ph = .eSpc1 → e.asz = f.asz)

/-- Everything but the engine is the same. -/
def State.sameSurroundings (s t : State) : Prop :=
  s.sameOutside t ∧ t.host = s.host ∧ t.hrsp = s.hrsp ∧ t.forced = s.forced ∧ t.draws = s.draws

/-- The state with another mode flag in the host. -/
def State.withMode (s : State) (m : HostMode) : State := { s with host := { s.host with mode := m } }

/-- The characters of the input between two cursor positions. -/
def HostCtx.charsBetween (h : HostCtx) (p q : Nat) : List Byte := (h.inp.drop p).take (q - p)

end Sys2Proof.Machine

open Sys2Proof Sys2Proof.Machine

/-! ### Encoding and the step -/

/-- Words written out from the encodings of R25, R92, R81 and R85 to R89 decode to the operations they
stand for. -/
def Obligations.SampleWordsDecode : Prop :=
  decode ⟨.phase, 0b0001#24⟩ = .ok .lTake ∧
  decode ⟨.phase, 0b1101#24⟩ = .ok .eMode ∧
  decode ⟨.pin, 0b1#24⟩ = .ok .start ∧
  decode ⟨.hcmd, 0b0101_00000010#24⟩ = .ok (.pushback 2) ∧
  decode ⟨.hcmd, 0b0110_01111100#24⟩ = .ok (.emit 0x7C) ∧
  decode ⟨.char, 0b01000001#24⟩ = .ok (.chB40 1) ∧
  decode ⟨.char, 0b01011111#24⟩ = .ok .chUnl ∧
  decode ⟨.cw0, 0b10010011#24⟩ = .ok (.cw0 36 3) ∧
  decode ⟨.pack4, 0b100100_110110_011010_000001#24⟩ = .ok (.pack4 36 54 26 1) ∧
  decode ⟨.pack1, 0b011111_00#24⟩ = .ok (.pack1 31)

/-- Decoding the encoding of any operation gives the operation back, every operand at every value. -/
def Obligations.DecodeOfEncodeIsIdentity : Prop := ∀ i : Instr, decode (encode i) = .ok i

/-- Every word that decodes is the encoding of what it decodes to: a word has one meaning on its channel,
and an operation one word. -/
def Obligations.DecodedWordIsTheEncoding : Prop :=
  ∀ (w : TableWord) (i : Instr), decode w = .ok i → encode i = w

/-- A step that neither resets nor waits runs the operation fetched: the first presented word, `START` when the
pin is 1 in `IDLE` or `HALT`, else the operation of `PH` (R11, R25, R140). Sampling the pins leaves the
engine as it was. -/
def Obligations.StepRunsTheFetchedOperation : Prop :=
  ∀ (s : State) (i : Instr), s.nextSample.pins.rst = false → s.sample.waiting = false →
    decode s.sample.fetch = .ok i → i.wellFormed = true →
    step s = exec i s.sample.fetched ∧
    s.sample.fetched.toEngine = s.toEngine ∧
    s.sample.fetched.inputs = s.inputs.tail ∧
    s.sample.fetched.pins = s.nextSample.pins ∧
    s.sample.fetched.presented = s.presented.tail ∧
    (s.ph.busy = true → s.sample.fetched.host = s.host) ∧
    (s.presented = [] → s.ph.busy = true → i = decodePhase s.ph.code) ∧
    (s.presented = [] → s.ph.busy = false → s.nextSample.pins.start = true → i = .start) ∧
    (s.presented = [] → s.nextSample.pins.start = false → i = decodePhase s.ph.code)

/-- While a command is presented and the host has not answered, nothing happens (R90, R221). -/
def Obligations.UnansweredCommandWaits : Prop :=
  ∀ s : State, s.presented = [] → s.ph.busy = true → s.nextSample.pins.rst = false →
    s.nextSample.pins.rspValid = false →
    ∃ t, step s = .next t ∧ t.toEngine = s.toEngine ∧ t.host = s.host ∧ t.hrsp = s.hrsp ∧
      t.forced = s.forced ∧ t.draws = s.draws ∧ t.cmdValid = true ∧ t.hcmd = s.hcmd

/-! ### Reset, START, IDLE, HALT -/

/-- A step with `rst = 1` ignores `PH` and every other input and gives the reset column of R35 (R240); `BUF`,
`EIDX` and `ASZ` are not said. No command is performed: the host is as the sampling of the step leaves it
(during a run as it was, between runs what it made of itself, R241, L3), and the response port keeps its
word. That a reset during a run is so modelled is log entry 21 (R241, U17). -/
def Obligations.RstStepResetsTheEngine : Prop :=
  ∀ s : State, s.nextSample.pins.rst = true →
    ∃ t, step s = .next t ∧ t.ph = .idle ∧ t.cnt = 0 ∧ t.st = .none ∧ t.unl = false ∧
      t.msw = false ∧ t.cheap = false ∧ t.status = 0 ∧ t.cmdValid = false ∧ t.hcmd = 0 ∧
      t.host = s.sample.host ∧ (s.ph.busy = true → t.host = s.host) ∧ t.hrsp = s.hrsp ∧
      t.forced = s.forced

/-- The reset state meets both invariants and shows `STATUS = 0`. The values of its cells, `EIDX` and
`ASZ` are the model's choice (log entry 4) and are not stated. -/
def Obligations.ResetStateMeetsTheInvariants : Prop :=
  State.reset.ControlInv ∧ State.reset.HostInv ∧ State.reset.status = 0 ∧
    State.reset.cmdValid = false

/-- R141: `IDLE` waits for `start`. -/
def Obligations.IdleWaitsForStart : Prop :=
  decode ⟨.phase, 0⟩ = .ok .idle ∧ (∀ e : Engine, e.ph = .idle → e.cmdValid = false) ∧
  ∀ s : State,
    (s.pins.start = false → exec .idle s = .next { s with ph := .idle }) ∧
    (s.pins.start = true → exec .idle s = .next
      { s with cnt := 0, st := .none, unl := false, msw := false, cheap := false, ph := .lTake })

/-- R140: `START` clears the count, the status and the flags and enters the loop; `BUF`, `EIDX`, `ASZ`
and the host are left as they are; outside `IDLE` and `HALT` it is ignored. -/
def Obligations.StartBeginsARun : Prop :=
  ∀ s : State,
    (s.ph = .idle ∨ s.ph = .halt → exec .start s = .next
      { s with cnt := 0, st := .none, unl := false, msw := false, cheap := false, ph := .lTake }) ∧
    (s.ph ≠ .idle → s.ph ≠ .halt → exec .start s = .next s)

/-- R148: `HALT` keeps the result of the run until `start`. -/
def Obligations.HaltKeepsTheResult : Prop :=
  decode ⟨.phase, 15⟩ = .ok .halt ∧ (∀ e : Engine, e.ph = .halt → e.cmdValid = false) ∧
  ∀ s : State,
    (s.pins.start = false → exec .halt s = .next { s with ph := .halt }) ∧
    (s.pins.start = true → exec .halt s = .next
      { s with cnt := 0, st := .none, unl := false, msw := false, cheap := false, ph := .lTake })

/-! ### The loop -/

/-- R142: `L_TAKE` by the answer of `TAKE`: end of input, an encodable character, an illegal one. The
host's cursor moves past the character; nothing else of the host changes. -/
def Obligations.LTakeFollowsTheAnswer : Prop :=
  decode ⟨.phase, 1⟩ = .ok .lTake ∧ (∀ e : Engine, e.ph = .lTake → e.hcmd = 0x100) ∧
  ∀ s : State, s.cnt.toNat ≤ 3 →
    ∃ t, exec .lTake s = .next t ∧ s.answered t ∧
      (s.forced = [] → t.hrsp.char? = s.host.inp[s.host.pos]?) ∧
      t.host = { s.host with
        pos := if s.host.pos < s.host.inp.length then s.host.pos + 1 else s.host.pos } ∧
      t.toEngine =
        match t.hrsp.char? with
        | none => { s.toEngine with ph := .eCnt }
        | some c =>
          if 32 ≤ c.toNat ∧ c.toNat ≤ 94 then
            if s.cnt = 3 then
              { s.toEngine with buf := s.buf.set 3 c, cnt := 4, eidx := 0, ph := .lFlush }
            else { s.toEngine with buf := s.buf.set s.cnt.toNat c, cnt := s.cnt + 1, ph := .lTake }
          else { s.toEngine with st := .illegal, cnt := 0, ph := .halt }

/-- R144: `L_FLUSH` emits `CW(EIDX, CNT)`; after the last codeword, index `NCW(CNT) - 1`, the buffer is
empty and the switch query is next. In a run `CNT` is 4 here; the rule is stated for every group.
Outside the range where `CW` is defined the presented word is the model's choice (log entry 23). -/
def Obligations.LFlushEmitsOneCodeword : Prop :=
  decode ⟨.phase, 2⟩ = .ok .lFlush ∧ (∀ e : Engine, e.ph = .lFlush →
    e.hcmd = 0x600 ||| (e.buf.cw e.eidx.toNat e.cnt.toNat).setWidth 12) ∧
  ∀ s : State, 1 ≤ s.cnt.toNat → s.cnt.toNat ≤ 4 → s.eidx.toNat < min s.cnt.toNat 3 →
    ∃ t, exec .lFlush s = .next t ∧ s.answered t ∧
      t.host = { s.host with out := s.host.out ++ [s.buf.cw s.eidx.toNat s.cnt.toNat] } ∧
      t.toEngine =
        if s.eidx.toNat = min s.cnt.toNat 3 - 1 then { s.toEngine with cnt := 0, ph := .lSwq }
        else { s.toEngine with eidx := s.eidx + 1, ph := .lFlush }

/-- Three `L_FLUSH` steps do, step by step, to the host what `PACK4` of the buffer's values does in its three
consecutive `EMIT` steps (R98, R121, R144); then the buffer is empty and the switch query is next. That
the `EMIT`s after the first are presented to the next steps is the model's form of the expansion (log
entry 14). -/
def Obligations.ThreeLFlushStepsArePack4 : Prop :=
  ∀ s : State, s.cnt = 4 → s.eidx = 0 →
    ∃ t1 t2 t3 u1 u2 u3, exec .lFlush s = .next t1 ∧ exec .lFlush t1 = .next t2 ∧
      exec .lFlush t2 = .next t3 ∧
      exec (.pack4 (valueOf s.buf.c0) (valueOf s.buf.c1) (valueOf s.buf.c2) (valueOf s.buf.c3)) s
        = .next u1 ∧
      u1.presented = encode (.emit (s.buf.cw 1 4)) :: encode (.emit (s.buf.cw 2 4)) :: s.presented ∧
      exec (.emit (s.buf.cw 1 4)) u1.fetched = .next u2 ∧
      exec (.emit (s.buf.cw 2 4)) u2.fetched = .next u3 ∧
      t1.ph = .lFlush ∧ t2.ph = .lFlush ∧ t3.ph = .lSwq ∧ t3.cnt = 0 ∧
      (t1.host, t1.hrsp) = (u1.host, u1.hrsp) ∧ (t2.host, t2.hrsp) = (u2.host, u2.hrsp) ∧
      (t3.host, t3.hrsp) = (u3.host, u3.hrsp) ∧
      u3.toEngine = s.toEngine ∧ u3.presented = s.presented

/-- R145: `L_SWQ` goes to end-of-segment handling on yes and to the loop on no. -/
def Obligations.LSwqFollowsTheAnswer : Prop :=
  decode ⟨.phase, 3⟩ = .ok .lSwq ∧ (∀ e : Engine, e.ph = .lSwq → e.hcmd = 0x900) ∧
  ∀ s : State, ∃ t, exec .lSwq s = .next t ∧ s.answered t ∧
    t.host = { s.host with sw := s.host.sw.tail } ∧
    t.toEngine = { s.toEngine with ph := if t.hrsp.flag then .eCnt else .lTake }

/-! ### End-of-segment handling -/

/-- R161: `E_CNT` adds the two counts as naturals and checks `0 < rest_chars <= 4`.
With the cursor beyond the input, the answer is the model's choice (log entry 24). -/
def Obligations.ECntChecksTheRest : Prop :=
  decode ⟨.phase, 4⟩ = .ok .eCnt ∧ (∀ e : Engine, e.ph = .eCnt → e.hcmd = 0x200) ∧
  ∀ s : State, ∃ t, exec .eCnt s = .next t ∧ s.answered t ∧ t.host = s.host ∧
    (s.forced = [] → t.hrsp.int = s.host.inp.length - s.host.pos) ∧
    t.toEngine = { s.toEngine with
      ph := if 0 < s.cnt.toNat + t.hrsp.int ∧ s.cnt.toNat + t.hrsp.int ≤ 4 then .ePeek
        else if s.cnt = 0 then .eMore else .eSpck }

/-- R162: `E_PEEK` sizes the pending characters followed by the previewed ones, capped at 4 in all; a
`len` of 5, 6 or 7 counts as 4 (R95 g). -/
def Obligations.EPeekSizesTheTail : Prop :=
  decode ⟨.phase, 5⟩ = .ok .ePeek ∧ (∀ e : Engine, e.ph = .ePeek → e.hcmd = 0x300) ∧
  ∀ s : State, s.cnt.toNat ≤ 4 →
    ∃ t, exec .ePeek s = .next t ∧ s.answered t ∧ t.host = s.host ∧
      ∃ a, a = s.sizeFn.size (s.buf.cells.take s.cnt.toNat ++
          [t.hrsp.byte0, t.hrsp.byte1, t.hrsp.byte2, t.hrsp.byte3].take
            (min t.hrsp.len.toNat (4 - s.cnt.toNat))) ∧
        t.toEngine = { s.toEngine with
          asz := BitVec.ofNat 2 (min a 3)
          ph := if a ≤ 2 then .eSpc1 else if s.cnt = 0 then .eMore else .eSpck }

/-- R163: `E_SPC1` fires when `ASZ <= s <= 2` for the answer `s`, and fails the run on `none`. -/
def Obligations.ESpc1ChecksTheSpace : Prop :=
  decode ⟨.phase, 6⟩ = .ok .eSpc1 ∧ (∀ e : Engine, e.ph = .eSpc1 → e.hcmd = 0x700 ||| e.asz.setWidth 12) ∧
  ∀ s : State, ∃ t, exec .eSpc1 s = .next t ∧ s.answered t ∧ t.host = s.host ∧
    (s.forced = [] → t.hrsp.space? = s.host.spaceFor s.asz.toNat) ∧
    t.toEngine =
      match t.hrsp.space? with
      | none => { s.toEngine with st := .noSpace, cnt := 0, ph := .halt }
      | some n => { s.toEngine with
          ph := if s.asz.toNat ≤ n ∧ n ≤ 2 then .ePb else if s.cnt = 0 then .eMore else .eSpck }

/-- R164: `E_PB` un-consumes the pending characters and marks the cheap finish. In a run as many were
taken (R195 b); of other states the position of the cursor is not said (log entry 11), every other
effect is. -/
def Obligations.EPbGivesTheCharactersBack : Prop :=
  decode ⟨.phase, 7⟩ = .ok .ePb ∧
  (∀ e : Engine, e.ph = .ePb → e.cnt.toNat ≤ 3 → e.hcmd = 0x500 ||| e.cnt.setWidth 12) ∧
  ∀ s : State, s.cnt.toNat ≤ 3 →
    ∃ t, exec .ePb s = .next t ∧ s.answered t ∧
      t.host = { s.host with pos := t.host.pos } ∧
      (s.cnt.toNat ≤ s.host.pos → t.host.pos = s.host.pos - s.cnt.toNat) ∧
      t.toEngine = { s.toEngine with cnt := 0, cheap := true, ph := .eMode }

/-- R165: `E_MORE` by the answer of `MORE`. -/
def Obligations.EMoreFollowsTheAnswer : Prop :=
  decode ⟨.phase, 8⟩ = .ok .eMore ∧ (∀ e : Engine, e.ph = .eMore → e.hcmd = 0x400) ∧
  ∀ s : State, ∃ t, exec .eMore s = .next t ∧ s.answered t ∧ t.host = s.host ∧
    (s.forced = [] → (t.hrsp.flag = true ↔ s.host.pos < s.host.inp.length)) ∧
    t.toEngine = { s.toEngine with ph := if t.hrsp.flag then .eUnls else .eSpc0 }

/-- R166: `E_SPC0`: room left, no room left, no answer. -/
def Obligations.ESpc0ChecksForRoom : Prop :=
  decode ⟨.phase, 9⟩ = .ok .eSpc0 ∧ (∀ e : Engine, e.ph = .eSpc0 → e.hcmd = 0x700) ∧
  ∀ s : State, ∃ t, exec .eSpc0 s = .next t ∧ s.answered t ∧ t.host = s.host ∧
    (s.forced = [] → t.hrsp.space? = s.host.spaceFor 0) ∧
    t.toEngine =
      match t.hrsp.space? with
      | none => { s.toEngine with st := .noSpace, cnt := 0, ph := .halt }
      | some 0 => { s.toEngine with st := .ok, cnt := 0, ph := .halt }
      | some _ => { s.toEngine with ph := .eUnlp }

/-- R167 and R168: the two unlatch phases emit `0x7C`; after `E_UNLP` the mode is switched, after
`E_UNLS` the run is over and the mode is left to the host. -/
def Obligations.UnlatchPhasesEmitTheMarker : Prop :=
  decode ⟨.phase, 10⟩ = .ok .eUnlp ∧ decode ⟨.phase, 11⟩ = .ok .eUnls ∧
  (∀ e : Engine, e.ph = .eUnlp ∨ e.ph = .eUnls → e.hcmd = 0x67C) ∧
  ∀ s : State,
    (∃ t, exec .eUnlp s = .next t ∧ s.answered t ∧
      t.host = { s.host with out := s.host.out ++ [0x7C] } ∧
      t.toEngine = { s.toEngine with unl := true, ph := .eMode }) ∧
    (∃ t, exec .eUnls s = .next t ∧ s.answered t ∧
      t.host = { s.host with out := s.host.out ++ [0x7C] } ∧
      t.toEngine = { s.toEngine with unl := true, st := .ok, cnt := 0, ph := .halt })

/-- R169: `E_SPCK` appends the marker when space remains or three values are pending. -/
def Obligations.ESpckAppendsTheMarker : Prop :=
  decode ⟨.phase, 12⟩ = .ok .eSpck ∧ (∀ e : Engine, e.ph = .eSpck → e.cnt.toNat ≤ 3 → e.hcmd = 0x700 ||| e.cnt.setWidth 12) ∧
  ∀ s : State, s.cnt.toNat ≤ 3 →
    ∃ t, exec .eSpck s = .next t ∧ s.answered t ∧ t.host = s.host ∧
      (s.forced = [] → t.hrsp.space? = s.host.spaceFor s.cnt.toNat) ∧
      t.toEngine =
        match t.hrsp.space? with
        | none => { s.toEngine with st := .noSpace, cnt := 0, ph := .halt }
        | some n =>
          if 0 < n ∨ s.cnt = 3 then
            { s.toEngine with
              buf := s.buf.set s.cnt.toNat 0x1F, cnt := s.cnt + 1, unl := true, ph := .eMode }
          else { s.toEngine with eidx := 0, ph := .eFlush }

/-- R170: `E_MODE` switches the host to the default mode; then the final group, if there is one. -/
def Obligations.EModeSwitchesTheHost : Prop :=
  decode ⟨.phase, 13⟩ = .ok .eMode ∧ (∀ e : Engine, e.ph = .eMode → e.hcmd = 0x800) ∧
  ∀ s : State, ∃ t, exec .eMode s = .next t ∧ s.answered t ∧
    t.host = { s.host with mode := .default } ∧
    t.toEngine =
      if s.cnt = 0 then { s.toEngine with msw := true, st := .ok, cnt := 0, ph := .halt }
      else { s.toEngine with msw := true, eidx := 0, ph := .eFlush }

/-- R171: `E_FLUSH` emits `CW(EIDX, CNT)`; after the last codeword the run is over.
Outside the range where `CW` is defined the presented word is the model's choice (log entry 23). -/
def Obligations.EFlushEmitsOneCodeword : Prop :=
  decode ⟨.phase, 14⟩ = .ok .eFlush ∧ (∀ e : Engine, e.ph = .eFlush →
    e.hcmd = 0x600 ||| (e.buf.cw e.eidx.toNat e.cnt.toNat).setWidth 12) ∧
  ∀ s : State, 1 ≤ s.cnt.toNat → s.cnt.toNat ≤ 4 → s.eidx.toNat < min s.cnt.toNat 3 →
    ∃ t, exec .eFlush s = .next t ∧ s.answered t ∧
      t.host = { s.host with out := s.host.out ++ [s.buf.cw s.eidx.toNat s.cnt.toNat] } ∧
      t.toEngine =
        if s.eidx.toNat = min s.cnt.toNat 3 - 1 then
          { s.toEngine with cnt := 0, st := .ok, ph := .halt }
        else { s.toEngine with eidx := s.eidx + 1, ph := .eFlush }

/-- Where the phases and classes stop: `CNT` or `EIDX` outside the operand range of the form (R21, R125,
R127, log entry 15). No run reaches these. -/
def Obligations.OutOfRangeOperandsFault : Prop :=
  ∀ s : State,
    (3 < s.cnt.toNat → ∀ i ∈ [Instr.lTake, .ePb, .eSpck],
      exec i s = .fault .pendingCountOutOfRange) ∧
    (3 < s.cnt.toNat → ∀ c : Byte, encodable c = true →
      exec (decodeChar c) s = .fault .pendingCountOutOfRange) ∧
    (4 < s.cnt.toNat → exec .ePeek s = .fault .pendingCountOutOfRange) ∧
    (s.cnt = 0 ∨ 4 < s.cnt.toNat → ∀ i ∈ [Instr.lFlush, .eFlush],
      exec i s = .fault .pendingCountOutOfRange) ∧
    (1 ≤ s.cnt.toNat → s.cnt.toNat ≤ 4 → min s.cnt.toNat 3 ≤ s.eidx.toNat →
      ∀ i ∈ [Instr.lFlush, .eFlush], exec i s = .fault .codewordIndexOutOfRange)

/-! ### Host commands -/

/-- R191: `TAKE` answers the character at the cursor and moves past it, or answers `none`. -/
def Obligations.TakeReadsTheNextCharacter : Prop :=
  ∀ s : State, ∃ t, exec .take s = .next t ∧ t.toEngine = s.toEngine ∧ s.answered t ∧
    (s.forced = [] → t.hrsp.char? = s.host.inp[s.host.pos]?) ∧
    (s.host.pos < s.host.inp.length → t.host = { s.host with pos := s.host.pos + 1 }) ∧
    (s.host.inp.length ≤ s.host.pos → t.host = s.host)

/-- R192 to R194: `COUNT`, `PEEK` and `MORE` answer from the cursor and change nothing.
With the cursor beyond the input, the answer is the model's choice (log entry 24). -/
def Obligations.InputQueriesAnswerTheCursor : Prop :=
  ∀ s : State,
    (∃ t, exec .count s = .next t ∧ t.toEngine = s.toEngine ∧ s.answered t ∧ t.host = s.host ∧
      (s.forced = [] → t.hrsp.int = s.host.inp.length - s.host.pos)) ∧
    (∃ t, exec .more s = .next t ∧ t.toEngine = s.toEngine ∧ s.answered t ∧ t.host = s.host ∧
      (s.forced = [] → (t.hrsp.flag = true ↔ s.host.pos < s.host.inp.length))) ∧
    (∃ t, exec .peek s = .next t ∧ t.toEngine = s.toEngine ∧ s.answered t ∧ t.host = s.host ∧
      (s.forced = [] →
        t.hrsp.len.toNat = min (s.host.inp.length - s.host.pos) 4 ∧
        [t.hrsp.byte0, t.hrsp.byte1, t.hrsp.byte2, t.hrsp.byte3].take t.hrsp.len.toNat =
          (s.host.inp.drop s.host.pos).take 4))

/-- R195: `PUSHBACK(n)` moves the cursor back by `n`. Un-consuming more than was taken is excluded by
R195 (b) and no position is stated for it; the command runs there too and leaves the cursor somewhere
in the input (log entry 11). -/
def Obligations.PushbackMovesTheCursor : Prop :=
  ∀ (n : BitVec 2) (s : State), ∃ t, exec (.pushback n) s = .next t ∧ t.toEngine = s.toEngine ∧
    s.answered t ∧ t.host = { s.host with pos := t.host.pos } ∧
    (n.toNat ≤ s.host.pos → t.host.pos = s.host.pos - n.toNat) ∧
    (s.host.pos < n.toNat → t.host.pos ≤ s.host.inp.length)

/-- R196: `EMIT` appends its codeword to the sink. That a codeword given by its layout (R85 to R87, formats
without an effect of their own) or `UNLATCHCW` (R89) is, as an operation, the `EMIT` of that codeword is
the model's reading (log entry 14). -/
def Obligations.CodewordIsAppendedToTheSink : Prop :=
  ∀ (s : State) (cw : Byte) (a d : BitVec 6) (b c : BitVec 4) (x y : BitVec 2),
    ∀ p ∈ [(Instr.emit cw, cw), (.cw0 a x, a ++ x), (.cw1 b c, b ++ c), (.cw2 y d, y ++ d),
        (.unlatchcw, 0x7C)],
      ∃ t, exec p.1 s = .next t ∧ t.toEngine = s.toEngine ∧ s.answered t ∧
        t.host = { s.host with out := s.host.out ++ [p.2] }

/-- R197 and R201: `SPACE(n)` changes nothing; a host of fixed capacity `C` answers what would remain,
or `none` when `n` more codewords do not fit or `C` is not known. -/
def Obligations.SpaceAnswersWithoutChange : Prop :=
  ∀ (n : BitVec 2) (s : State), ∃ t, exec (.space n) s = .next t ∧ t.toEngine = s.toEngine ∧
    s.answered t ∧ t.host = s.host ∧
    (s.forced = [] →
      t.hrsp.space? = s.host.spaceFor n.toNat ∧
      (s.host.cap = .fixed none → t.hrsp.space? = none) ∧
      ∀ c, s.host.cap = .fixed (some c) →
        t.hrsp.space? = if s.host.out.length + n.toNat ≤ c
          then some (c - s.host.out.length - n.toNat) else none)

/-- R198: `SETMODE(MODE_DEFAULT)` sets the mode flag. No other mode code has a meaning (R95 e), and the
model refuses it (log entry 10). -/
def Obligations.SetmodeSelectsTheDefaultMode : Prop :=
  ∀ s : State,
    (∃ t, exec (.setmode 0) s = .next t ∧ t.toEngine = s.toEngine ∧ s.answered t ∧
      t.host = { s.host with mode := .default }) ∧
    ∀ mode : BitVec 3, mode ≠ 0 → exec (.setmode mode) s = .refused (.setmodeOtherMode mode)

/-- R190 and R199: `NOP` does nothing; `SWITCHQ` answers the host's next answer, where it has one, and
changes nothing but what is left of them. -/
def Obligations.NopAndSwitchqLeaveTheStreams : Prop :=
  ∀ s : State,
    exec .nop s = .next s ∧
    ∃ t, exec .switchq s = .next t ∧ t.toEngine = s.toEngine ∧ s.answered t ∧
      t.host = { s.host with sw := s.host.sw.tail } ∧
      (s.forced = [] → ∀ b l, s.host.sw = b :: l → t.hrsp.flag = b) ∧
      (s.forced = [] → ∀ b, s.host.sw = [] → s.host.swRest = some b → t.hrsp.flag = b)

/-- R95 (c): the reserved command codes have no meaning; the model refuses them by name. -/
def Obligations.ReservedCommandsAreRefused : Prop :=
  ∀ (arg : Byte) (s : State),
    exec (.reserved10 arg) s = .refused (.reservedCommand 10) ∧
    exec (.reserved11 arg) s = .refused (.reservedCommand 11) ∧
    exec (.reserved12 arg) s = .refused (.reservedCommand 12) ∧
    exec (.reserved13 arg) s = .refused (.reservedCommand 13) ∧
    exec (.reserved14 arg) s = .refused (.reservedCommand 14) ∧
    exec (.reserved15 arg) s = .refused (.reservedCommand 15)

/-! ### Characters -/

/-- An encodable class accumulates the character, as `L_TAKE` does with it (R81, R142). That a class is an
operation of its own, in whatever phase, is the model's reading (log entry 13). -/
def Obligations.EncodableClassesAccumulate : Prop :=
  ∀ (s : State) (x : BitVec 5) (y : BitVec 4) (z : BitVec 3) (u : BitVec 2) (v : BitVec 1),
    s.cnt.toNat ≤ 3 →
    ∀ p ∈ [(Instr.chA x, x.toNat + 32), (.chB40 y, y.toNat + 64), (.chB50 z, z.toNat + 80),
        (.chB58 u, u.toNat + 88), (.chB5C v, v.toNat + 92), (.chB5E, 94)],
      exec p.1 s = .next (if s.cnt = 3 then
          { s with buf := s.buf.set 3 (BitVec.ofNat 8 p.2), cnt := 4, eidx := 0, ph := .lFlush }
        else
          { s with buf := s.buf.set s.cnt.toNat (BitVec.ofNat 8 p.2), cnt := s.cnt + 1, ph := .lTake })

/-- A character of an illegal class does what `L_TAKE` does with it, it raises `IllegalChar` (R211, R216):
`ST <- 2`, `CNT <- 0`, `PH <- HALT`, and nothing else. That a class is an operation of its own, in
whatever phase, is the model's reading (log entry 13). -/
def Obligations.IllegalClassesRaise : Prop :=
  ∀ (s : State) (x y : BitVec 5) (z : BitVec 7),
    ∀ i ∈ [Instr.chUnl, .chLow x, .chHi1 y, .chHi2 z],
      exec i s = .next { s with st := .illegal, cnt := 0, ph := .halt }

/-- R81: every character has one class; the word of the class is the character, and the class is
encodable exactly for 32 to 94. -/
def Obligations.EveryCharacterHasOneClass : Prop :=
  ∀ c : Byte, encode (decodeChar c) = charWord c ∧
    (encodable c = true ↔ 32 ≤ c.toNat ∧ c.toNat ≤ 94) ∧
    (encodable c = true ↔ decodeChar c ≠ .chUnl ∧ (∀ x, decodeChar c ≠ .chLow x) ∧
      (∀ x, decodeChar c ≠ .chHi1 x) ∧ ∀ x, decodeChar c ≠ .chHi2 x)

/-- `L_TAKE` does with a character what the character's class says (R81, R142). That a class is an operation
of its own is the model's reading, and this is what it means (log entry 13). -/
def Obligations.LTakeRunsTheCharacterClass : Prop :=
  ∀ (s : State) (c : Byte), s.cnt.toNat ≤ 3 → s.hostTake.hrsp.char? = some c →
    exec .lTake s = exec (decodeChar c) s.hostTake

/-- R83: on encodable characters the value determines the character, by the inverse map, and is never the
unlatch marker. -/
def Obligations.EncodableValueDeterminesTheCharacter : Prop :=
  (∀ c : Byte, encodable c = true → charOf (valueOf c) = c ∧ valueOf c ≠ 31) ∧
  (∀ v : Value, v ≠ 31 → encodable (charOf v) = true ∧ valueOf (charOf v) = v)

/-! ### Packing -/

/-- R125: the three codewords as concatenations of slices of the values supplied, and that they are those
of the 8-bit arithmetic.
Where `CW` is not defined its value is the model's choice (log entry 23). -/
def Obligations.CodewordsMatchThe8BitArithmetic : Prop :=
  ∀ (b : Buf) (k : Nat),
    b.cw 0 k = b.val 0 k ++ (b.val 1 k).extractLsb' 4 2 ∧
    b.cw 1 k = (b.val 1 k).extractLsb' 0 4 ++ (b.val 2 k).extractLsb' 2 4 ∧
    b.cw 2 k = (b.val 2 k).extractLsb' 0 2 ++ b.val 3 k ∧
    ∀ i, i < 3 →
      b.cw i k = codewordBy8BitArithmetic (b.val 0 k) (b.val 1 k) (b.val 2 k) (b.val 3 k) i

/-- R98, R121 to R124: a packing form emits its 3, 3, 2 or 1 codewords in ascending index, one `EMIT` a step
(R11), and changes nothing else of the engine or the host, whatever the values: the operation performs
the first and presents the others to the steps that follow (log entry 14), and as many steps as there
are codewords, from a state where the form is presented, perform them all. -/
def Obligations.PackFormsEmitTheirCodewords : Prop :=
  ∀ (s : State) (v0 v1 v2 v3 : Value),
    ∀ p ∈ [(Instr.pack4 v0 v1 v2 v3, codewordBy8BitArithmetic v0 v1 v2 v3 0,
            [codewordBy8BitArithmetic v0 v1 v2 v3 1, codewordBy8BitArithmetic v0 v1 v2 v3 2]),
        (.pack3 v0 v1 v2, codewordBy8BitArithmetic v0 v1 v2 0 0,
            [codewordBy8BitArithmetic v0 v1 v2 0 1, codewordBy8BitArithmetic v0 v1 v2 0 2]),
        (.pack2 v0 v1, codewordBy8BitArithmetic v0 v1 0 0 0, [codewordBy8BitArithmetic v0 v1 0 0 1]),
        (.pack1 v0, codewordBy8BitArithmetic v0 0 0 0 0, [])],
      (∃ t, exec p.1 s = .next t ∧ t.toEngine = s.toEngine ∧ t.pins = s.pins ∧
        t.sizeFn = s.sizeFn ∧ t.inputs = s.inputs ∧ t.forced = s.forced.tail ∧
        t.draws = s.draws + 1 ∧ t.host = { s.host with out := s.host.out ++ [p.2.1] } ∧
        t.presented = p.2.2.map (fun c => encode (.emit c)) ++ s.presented) ∧
      ∀ rest, s.presented = encode p.1 :: rest → s.inputs = [] →
        ∃ t, Host.Core.run core (p.2.2.length + 1) s = .next t ∧ t.toEngine = s.toEngine ∧
          t.host = { s.host with out := s.host.out ++ p.2.1 :: p.2.2 } ∧ t.presented = rest ∧
          t.sizeFn = s.sizeFn ∧ t.inputs = [] ∧ t.forced = s.forced.drop (p.2.2.length + 1) ∧
          t.draws = s.draws + p.2.2.length + 1

/-- The packing form of the values the buffer supplies emits the buffer's `CW(0, k)` to `CW(NCW(k)-1, k)`, in
`NCW(k)` steps, one `EMIT` a step (R98, R120 to R126; log entry 14). -/
def Obligations.PackFormsOfTheBuffer : Prop :=
  ∀ s : State, s.inputs = [] →
    ∀ p ∈ [(Instr.pack4 (s.buf.val 0 4) (s.buf.val 1 4) (s.buf.val 2 4) (s.buf.val 3 4),
            [s.buf.cw 0 4, s.buf.cw 1 4, s.buf.cw 2 4]),
        (.pack3 (s.buf.val 0 3) (s.buf.val 1 3) (s.buf.val 2 3),
            [s.buf.cw 0 3, s.buf.cw 1 3, s.buf.cw 2 3]),
        (.pack2 (s.buf.val 0 2) (s.buf.val 1 2), [s.buf.cw 0 2, s.buf.cw 1 2]),
        (.pack1 (s.buf.val 0 1), [s.buf.cw 0 1])],
      ∀ rest, s.presented = encode p.1 :: rest → ∀ n, n ≤ p.2.length →
        ∃ t, Host.Core.run core n s = .next t ∧ t.toEngine = s.toEngine ∧
          t.host = { s.host with out := s.host.out ++ p.2.take n } ∧
          (n = p.2.length → t.presented = rest)

/-- R130: unpacking the emitted codewords, missing ones taken as zero, gives the values back: all four of
`PACK4`, the first `k` for `k < 4`. -/
def Obligations.UnpackRecoversTheValues : Prop :=
  ∀ (b : Buf) (k : Nat), 1 ≤ k → k ≤ 4 →
    (unpack (b.cw 0 k) (if 1 < ncw k then b.cw 1 k else 0) (if 2 < ncw k then b.cw 2 k else 0)).take k
      = (b.pending k).map valueOf

/-- R131: bits [7:6] of a cell never reach a codeword.
Where `CW` is not defined its value is the model's choice (log entry 23). -/
def Obligations.UpperBitsAreIgnored : Prop :=
  ∀ (b b' : Buf) (k i : Nat), (∀ j, j < k → (b.get j).extractLsb' 0 6 = (b'.get j).extractLsb' 0 6) →
    b.cw i k = b'.cw i k

/-- R34 and R29: the fields of the `STATUS` view, with the codes of `ST`. -/
def Obligations.StatusViewFields : Prop :=
  ∀ e : Engine,
    (e.status[7] = true ↔ e.ph ≠ .idle ∧ e.ph ≠ .halt) ∧
    (e.status[6] = true ↔ e.ph = .halt) ∧
    (e.st = .none → e.status.extractLsb' 4 2 = 0) ∧
    (e.st = .ok → e.status.extractLsb' 4 2 = 1) ∧
    (e.st = .illegal → e.status.extractLsb' 4 2 = 2) ∧
    (e.st = .noSpace → e.status.extractLsb' 4 2 = 3) ∧
    e.status[3] = e.unl ∧ e.status[2] = e.msw ∧ e.status[1] = e.cheap ∧ e.status[0] = false

/-! ### Rules of the whole machine -/

/-- Every step keeps the invariant of the engine, whatever responses arrive and whatever the pins and the
host do (R22, R23, R26, R29 to R32, R37, R38, R146, R216). -/
def Obligations.StepKeepsTheControlInvariant : Prop :=
  ∀ s t : State, s.ControlInv → step s = .next t → t.ControlInv

/-- Every step keeps the invariant of the host's side: the pending cells are the last `CNT` characters
taken, they are encodable, and after the loop they are pending only at the end of the input (R51, R195 b,
R169 e). -/
def Obligations.StepKeepsTheHostInvariant : Prop :=
  ∀ s t : State, s.ControlInv → s.HostInv → step s = .next t → t.HostInv

/-- With a conforming host every step completes: no fault and no refusal (R213). -/
def Obligations.EveryStepCompletes : Prop :=
  ∀ s : State, s.ControlInv → s.HostInv → ∃ t, step s = .next t

/-- R172: the control-flow graph, and with which status each phase enters `HALT`. -/
def Obligations.PhasesFollowTheGraph : Prop :=
  ∀ s t : State, s.presented = [] → s.nextSample.pins.rst = false → s.sample.waiting = false →
    step s = .next t →
    t.ph ∈ s.ph.successors ∧ (s.ph ≠ .halt → t.ph = .halt → t.st ∈ s.ph.exits)

/-- R30 to R32: each flag is set by its own phases only, and cleared only by `START` and reset. -/
def Obligations.FlagsAreSetByTheirPhasesOnly : Prop :=
  ∀ s t : State, s.presented = [] → step s = .next t →
    (s.unl = false → t.unl = true → s.ph = .eUnlp ∨ s.ph = .eUnls ∨ s.ph = .eSpck) ∧
    (s.msw = false → t.msw = true → s.ph = .eMode) ∧
    (s.cheap = false → t.cheap = true → s.ph = .ePb) ∧
    (s.unl = true ∧ t.unl = false ∨ s.msw = true ∧ t.msw = false ∨ s.cheap = true ∧ t.cheap = false →
      s.nextSample.pins.rst = true ∨ s.ph.busy = false ∧ t.ph = .lTake)

/-- R29 and R37: a step that enters `HALT` sets `ST` to 1, 2 or 3 and `CNT` to 0, and no other step but
`START` and reset writes `ST`. -/
def Obligations.StatusIsWrittenOnEntryToHalt : Prop :=
  ∀ s t : State, s.presented = [] → step s = .next t →
    (s.ph ≠ .halt → t.ph = .halt → t.st ≠ .none ∧ t.cnt = 0) ∧
    (t.st ≠ s.st → t.ph = .halt ∧ s.ph ≠ .halt ∨
      t.st = .none ∧ (s.nextSample.pins.rst = true ∨ s.ph.busy = false ∧ t.ph = .lTake))

/-- R216: exception entry, the whole of it. A step that ends a run in a fault writes `ST`, `CNT` and `PH`
and no other register; the flags are 0; the host is untouched but for the `TAKE` of an illegal character.
`IllegalChar` comes from `L_TAKE` on a character outside 32 to 94, `NoSpace` from the three phases that
ask `SPACE`, on `none` (R210 to R212). -/
def Obligations.ExceptionEntryWritesNothingElse : Prop :=
  ∀ s t : State, s.ControlInv → step s = .next t → s.ph ≠ .halt → t.ph = .halt →
    t.st = .illegal ∨ t.st = .noSpace →
    t.toEngine = { s.toEngine with st := t.st, cnt := 0, ph := .halt } ∧
    t.unl = false ∧ t.msw = false ∧ t.cheap = false ∧
    (t.st = .illegal → s.ph = .lTake ∧
      t.host = { s.host with
        pos := if s.host.pos < s.host.inp.length then s.host.pos + 1 else s.host.pos } ∧
      ∃ c, t.hrsp.char? = some c ∧ (c.toNat < 32 ∨ 94 < c.toNat)) ∧
    (t.st = .noSpace → (s.ph = .eSpc1 ∨ s.ph = .eSpc0 ∨ s.ph = .eSpck) ∧ t.host = s.host ∧
      t.hrsp.space? = none)

/-- During a run the host changes only as the commands say (R33, R52, R64, R219): the sink only grows, by at
most one codeword a step, and by the four emitting phases; the cursor moves by `L_TAKE` and `E_PB` only;
the mode is set by `E_MODE` only; the input and the capacity state never change. -/
def Obligations.HostChangesByItsCommandsOnly : Prop :=
  ∀ s t : State, s.presented = [] → s.ph.busy = true → step s = .next t →
    (t.host.out = s.host.out ∨
      (s.ph = .lFlush ∨ s.ph = .eFlush ∨ s.ph = .eUnlp ∨ s.ph = .eUnls) ∧
        ∃ b, t.host.out = s.host.out ++ [b]) ∧
    (t.host.pos ≠ s.host.pos → s.ph = .lTake ∧ t.host.pos = s.host.pos + 1 ∨
      s.ph = .ePb ∧ (s.cnt.toNat ≤ s.host.pos → t.host.pos + s.cnt.toNat = s.host.pos)) ∧
    (t.host.mode ≠ s.host.mode → s.ph = .eMode ∧ t.host.mode = .default) ∧
    (t.host.sw ≠ s.host.sw → s.ph = .lSwq) ∧
    t.host.inp = s.host.inp ∧ t.host.cap = s.host.cap ∧ t.host.swRest = s.host.swRest

/-- R94 and R11: a phase does to the host, and gets from it, exactly what the command it presents does and
answers. -/
def Obligations.PhaseIssuesItsCommand : Prop :=
  ∀ s t : State, s.ControlInv → s.ph.busy = true →
    exec (decodePhase s.ph.code) s = .next t →
    ∃ u, exec s.command s = .next u ∧ t.host = u.host ∧ t.hrsp = u.hrsp ∧ t.forced = u.forced ∧
      t.draws = u.draws ∧ u.toEngine = s.toEngine

/-- R92 and R94: the command word presented in each phase; the argument of a flush is `CW(EIDX, CNT)`.
Outside the range where `CW` is defined the presented word is the model's choice (log entry 23). -/
def Obligations.CommandWordByPhase : Prop :=
  ∀ e : Engine,
    (e.ph = .idle ∨ e.ph = .halt → e.hcmd = 0x000) ∧
    (e.ph = .lTake → e.hcmd = 0x100) ∧
    (e.ph = .eCnt → e.hcmd = 0x200) ∧
    (e.ph = .ePeek → e.hcmd = 0x300) ∧
    (e.ph = .eMore → e.hcmd = 0x400) ∧
    (e.ph = .ePb → e.cnt.toNat ≤ 3 → e.hcmd = 0x500 ||| e.cnt.setWidth 12) ∧
    (e.ph = .lFlush ∨ e.ph = .eFlush →
      e.hcmd = 0x600 ||| (e.buf.cw e.eidx.toNat e.cnt.toNat).setWidth 12) ∧
    (e.ph = .eUnlp ∨ e.ph = .eUnls → e.hcmd = 0x67C) ∧
    (e.ph = .eSpc1 → e.hcmd = 0x700 ||| e.asz.setWidth 12) ∧
    (e.ph = .eSpc0 → e.hcmd = 0x700) ∧
    (e.ph = .eSpck → e.cnt.toNat ≤ 3 → e.hcmd = 0x700 ||| e.cnt.setWidth 12) ∧
    (e.ph = .eMode → e.hcmd = 0x800) ∧
    (e.ph = .lSwq → e.hcmd = 0x900) ∧
    (e.cmdValid = true ↔ e.ph ≠ .idle ∧ e.ph ≠ .halt)

/-- R24, R26 and R28: cells at or beyond `CNT`, `EIDX` outside a flush and `ASZ` outside `E_SPC1` are never
observable: two machines that differ only there present the same outputs, and they answer alike and go on
differing only there. -/
def Obligations.StaleRegistersAreUnobservable : Prop :=
  ∀ s1 s2 : State, s1.presented = [] → s1.agrees s2.toEngine → s1.sameSurroundings s2 →
    s1.hcmd = s2.hcmd ∧ s1.cmdValid = s2.cmdValid ∧ s1.status = s2.status ∧
    ∀ t1, step s1 = .next t1 →
      ∃ t2, step s2 = .next t2 ∧ t1.agrees t2.toEngine ∧ t1.sameSurroundings t2

/-- The engine never reads the host's mode (R33, R64 c): with another mode flag a step does the same. -/
def Obligations.ModeFlagIsNeverRead : Prop :=
  ∀ (s t : State) (m : HostMode), step s = .next t →
    ∃ t', step (s.withMode m) = .next t' ∧ t'.withMode .edifact = t.withMode .edifact

/-- Every run ends: a busy state that meets the invariants reaches `HALT` within a bound that is 8 steps
from `E_CNT` on (R172) and in the loop grows with the input left (R149). With no input scheduled the pins
are quiet, and that takes it as given that the host answers every command (duty H1, R221, log entry 1). -/
def Obligations.EveryRunEnds : Prop :=
  ∀ s : State, s.ControlInv → s.HostInv → s.inputs = [] → s.ph.busy = true →
    ∃ n t, n ≤ s.stepsLeft ∧ Host.Core.run core n s = .next t ∧ t.ph = .halt

/-- R173: end-of-segment handling, from `E_CNT` to `HALT`, is the outcome table: within 8 steps the host,
the status and the flags are those of `segmentOutcome`. With no input scheduled the pins are quiet, and
that takes it as given that the host answers every command (duty H1, R221, log entry 1). -/
def Obligations.EndOfSegmentIsTheOutcomeTable : Prop :=
  ∀ s : State, s.ph = .eCnt → s.ControlInv → s.HostInv → s.inputs = [] →
    ∃ n t, n ≤ 8 ∧ Host.Core.run core n s = .next t ∧ t.ph = .halt ∧ t.cnt = 0 ∧
      (t.host, t.st, t.unl, t.msw, t.cheap) = s.segmentOutcome

/-- R174: what a run emits from `E_CNT` to `HALT` is at most 3 codewords, and no more than the host said
would fit where it was asked before they were emitted. -/
def Obligations.SegmentEndEmitsWhatFits : Prop :=
  ∀ s : State, s.ph = .eCnt → s.ControlInv → s.HostInv → s.inputs = [] →
    ∀ (n : Nat) (t : State), Host.Core.run core n s = .next t → t.ph = .halt →
      ∃ new, t.host.out = s.host.out ++ new ∧ new.length ≤ 3 ∧
        (s.cnt ≠ 0 → new ≠ [] → ∃ k, s.host.spaceFor s.cnt.toNat = some k ∧
          new.length ≤ s.cnt.toNat + k) ∧
        (s.cnt = 0 → s.host.pos = s.host.inp.length → new ≠ [] → ∃ k, s.host.spaceFor 0 = some k ∧
          new.length ≤ k)

/-- A successful run writes exactly its input (R55, R58, R147): from a started state, the bits of the
codewords emitted, most significant first, are the values of the characters consumed, in order, then the
unlatch marker if one was written, then fewer than 8 zero bits. Characters given back by the cheap finish
are not consumed. -/
def Obligations.SuccessfulRunPacksItsInput : Prop :=
  ∀ (s t : State) (n : Nat), s.ph = .lTake → s.cnt = 0 → s.ControlInv → s.HostInv → s.inputs = [] →
    Host.Core.run core n s = .next t → t.succeeded →
    ∃ new fill, t.host.inp = s.host.inp ∧ s.host.pos ≤ t.host.pos ∧
      t.host.out = s.host.out ++ new ∧ fill < 8 ∧
      codewordBits new =
        valueBits ((s.host.charsBetween s.host.pos t.host.pos).map valueOf ++
          if t.unl then [31] else []) ++ List.replicate fill false
end

