-- ==== Sys2Proof/Laws/State.lean ====
section
/-! SUPPORT. One lemma per field per named update of the state, so that later proofs unfold no record
update. -/

namespace Sys2Proof.Machine

@[simp] theorem State.clearStatus_buf (s : State) : s.clearStatus.buf = s.buf := rfl
@[simp] theorem State.clearStatus_cnt (s : State) : s.clearStatus.cnt = s.cnt := rfl
@[simp] theorem State.clearStatus_ph (s : State) : s.clearStatus.ph = s.ph := rfl
@[simp] theorem State.clearStatus_eidx (s : State) : s.clearStatus.eidx = s.eidx := rfl
@[simp] theorem State.clearStatus_asz (s : State) : s.clearStatus.asz = s.asz := rfl
@[simp] theorem State.clearStatus_st (s : State) : s.clearStatus.st = .none := rfl
@[simp] theorem State.clearStatus_unl (s : State) : s.clearStatus.unl = false := rfl
@[simp] theorem State.clearStatus_msw (s : State) : s.clearStatus.msw = false := rfl
@[simp] theorem State.clearStatus_cheap (s : State) : s.clearStatus.cheap = false := rfl
@[simp] theorem State.clearStatus_pins (s : State) : s.clearStatus.pins = s.pins := rfl
@[simp] theorem State.clearStatus_hrsp (s : State) : s.clearStatus.hrsp = s.hrsp := rfl
@[simp] theorem State.clearStatus_host (s : State) : s.clearStatus.host = s.host := rfl
@[simp] theorem State.clearStatus_sizeFn (s : State) : s.clearStatus.sizeFn = s.sizeFn := rfl
@[simp] theorem State.clearStatus_inputs (s : State) : s.clearStatus.inputs = s.inputs := rfl
@[simp] theorem State.clearStatus_forced (s : State) : s.clearStatus.forced = s.forced := rfl
@[simp] theorem State.clearStatus_presented (s : State) : s.clearStatus.presented = s.presented := rfl
@[simp] theorem State.clearStatus_draws (s : State) : s.clearStatus.draws = s.draws := rfl

@[simp] theorem State.setUnl_buf (s : State) : s.setUnl.buf = s.buf := rfl
@[simp] theorem State.setUnl_cnt (s : State) : s.setUnl.cnt = s.cnt := rfl
@[simp] theorem State.setUnl_ph (s : State) : s.setUnl.ph = s.ph := rfl
@[simp] theorem State.setUnl_eidx (s : State) : s.setUnl.eidx = s.eidx := rfl
@[simp] theorem State.setUnl_asz (s : State) : s.setUnl.asz = s.asz := rfl
@[simp] theorem State.setUnl_st (s : State) : s.setUnl.st = s.st := rfl
@[simp] theorem State.setUnl_unl (s : State) : s.setUnl.unl = true := rfl
@[simp] theorem State.setUnl_msw (s : State) : s.setUnl.msw = s.msw := rfl
@[simp] theorem State.setUnl_cheap (s : State) : s.setUnl.cheap = s.cheap := rfl
@[simp] theorem State.setUnl_pins (s : State) : s.setUnl.pins = s.pins := rfl
@[simp] theorem State.setUnl_hrsp (s : State) : s.setUnl.hrsp = s.hrsp := rfl
@[simp] theorem State.setUnl_host (s : State) : s.setUnl.host = s.host := rfl
@[simp] theorem State.setUnl_sizeFn (s : State) : s.setUnl.sizeFn = s.sizeFn := rfl
@[simp] theorem State.setUnl_inputs (s : State) : s.setUnl.inputs = s.inputs := rfl
@[simp] theorem State.setUnl_forced (s : State) : s.setUnl.forced = s.forced := rfl
@[simp] theorem State.setUnl_presented (s : State) : s.setUnl.presented = s.presented := rfl
@[simp] theorem State.setUnl_draws (s : State) : s.setUnl.draws = s.draws := rfl

@[simp] theorem State.setMsw_buf (s : State) : s.setMsw.buf = s.buf := rfl
@[simp] theorem State.setMsw_cnt (s : State) : s.setMsw.cnt = s.cnt := rfl
@[simp] theorem State.setMsw_ph (s : State) : s.setMsw.ph = s.ph := rfl
@[simp] theorem State.setMsw_eidx (s : State) : s.setMsw.eidx = s.eidx := rfl
@[simp] theorem State.setMsw_asz (s : State) : s.setMsw.asz = s.asz := rfl
@[simp] theorem State.setMsw_st (s : State) : s.setMsw.st = s.st := rfl
@[simp] theorem State.setMsw_unl (s : State) : s.setMsw.unl = s.unl := rfl
@[simp] theorem State.setMsw_msw (s : State) : s.setMsw.msw = true := rfl
@[simp] theorem State.setMsw_cheap (s : State) : s.setMsw.cheap = s.cheap := rfl
@[simp] theorem State.setMsw_pins (s : State) : s.setMsw.pins = s.pins := rfl
@[simp] theorem State.setMsw_hrsp (s : State) : s.setMsw.hrsp = s.hrsp := rfl
@[simp] theorem State.setMsw_host (s : State) : s.setMsw.host = s.host := rfl
@[simp] theorem State.setMsw_sizeFn (s : State) : s.setMsw.sizeFn = s.sizeFn := rfl
@[simp] theorem State.setMsw_inputs (s : State) : s.setMsw.inputs = s.inputs := rfl
@[simp] theorem State.setMsw_forced (s : State) : s.setMsw.forced = s.forced := rfl
@[simp] theorem State.setMsw_presented (s : State) : s.setMsw.presented = s.presented := rfl
@[simp] theorem State.setMsw_draws (s : State) : s.setMsw.draws = s.draws := rfl

@[simp] theorem State.setCheap_buf (s : State) : s.setCheap.buf = s.buf := rfl
@[simp] theorem State.setCheap_cnt (s : State) : s.setCheap.cnt = s.cnt := rfl
@[simp] theorem State.setCheap_ph (s : State) : s.setCheap.ph = s.ph := rfl
@[simp] theorem State.setCheap_eidx (s : State) : s.setCheap.eidx = s.eidx := rfl
@[simp] theorem State.setCheap_asz (s : State) : s.setCheap.asz = s.asz := rfl
@[simp] theorem State.setCheap_st (s : State) : s.setCheap.st = s.st := rfl
@[simp] theorem State.setCheap_unl (s : State) : s.setCheap.unl = s.unl := rfl
@[simp] theorem State.setCheap_msw (s : State) : s.setCheap.msw = s.msw := rfl
@[simp] theorem State.setCheap_cheap (s : State) : s.setCheap.cheap = true := rfl
@[simp] theorem State.setCheap_pins (s : State) : s.setCheap.pins = s.pins := rfl
@[simp] theorem State.setCheap_hrsp (s : State) : s.setCheap.hrsp = s.hrsp := rfl
@[simp] theorem State.setCheap_host (s : State) : s.setCheap.host = s.host := rfl
@[simp] theorem State.setCheap_sizeFn (s : State) : s.setCheap.sizeFn = s.sizeFn := rfl
@[simp] theorem State.setCheap_inputs (s : State) : s.setCheap.inputs = s.inputs := rfl
@[simp] theorem State.setCheap_forced (s : State) : s.setCheap.forced = s.forced := rfl
@[simp] theorem State.setCheap_presented (s : State) : s.setCheap.presented = s.presented := rfl
@[simp] theorem State.setCheap_draws (s : State) : s.setCheap.draws = s.draws := rfl

@[simp] theorem State.takeException_buf (s : State) (e : Exc) : (s.takeException e).buf = s.buf := rfl
@[simp] theorem State.takeException_cnt (s : State) (e : Exc) : (s.takeException e).cnt = 0 := rfl
@[simp] theorem State.takeException_ph (s : State) (e : Exc) : (s.takeException e).ph = .halt := rfl
@[simp] theorem State.takeException_eidx (s : State) (e : Exc) : (s.takeException e).eidx = s.eidx := rfl
@[simp] theorem State.takeException_asz (s : State) (e : Exc) : (s.takeException e).asz = s.asz := rfl
@[simp] theorem State.takeException_st (s : State) (e : Exc) : (s.takeException e).st = e.status := rfl
@[simp] theorem State.takeException_unl (s : State) (e : Exc) : (s.takeException e).unl = s.unl := rfl
@[simp] theorem State.takeException_msw (s : State) (e : Exc) : (s.takeException e).msw = s.msw := rfl
@[simp] theorem State.takeException_cheap (s : State) (e : Exc) : (s.takeException e).cheap = s.cheap := rfl
@[simp] theorem State.takeException_pins (s : State) (e : Exc) : (s.takeException e).pins = s.pins := rfl
@[simp] theorem State.takeException_hrsp (s : State) (e : Exc) : (s.takeException e).hrsp = s.hrsp := rfl
@[simp] theorem State.takeException_host (s : State) (e : Exc) : (s.takeException e).host = s.host := rfl
@[simp] theorem State.takeException_sizeFn (s : State) (e : Exc) : (s.takeException e).sizeFn = s.sizeFn := rfl
@[simp] theorem State.takeException_inputs (s : State) (e : Exc) : (s.takeException e).inputs = s.inputs := rfl
@[simp] theorem State.takeException_forced (s : State) (e : Exc) : (s.takeException e).forced = s.forced := rfl
@[simp] theorem State.takeException_presented (s : State) (e : Exc) : (s.takeException e).presented = s.presented := rfl
@[simp] theorem State.takeException_draws (s : State) (e : Exc) : (s.takeException e).draws = s.draws := rfl

@[simp] theorem State.finishOk_buf (s : State) : s.finishOk.buf = s.buf := rfl
@[simp] theorem State.finishOk_cnt (s : State) : s.finishOk.cnt = 0 := rfl
@[simp] theorem State.finishOk_ph (s : State) : s.finishOk.ph = .halt := rfl
@[simp] theorem State.finishOk_eidx (s : State) : s.finishOk.eidx = s.eidx := rfl
@[simp] theorem State.finishOk_asz (s : State) : s.finishOk.asz = s.asz := rfl
@[simp] theorem State.finishOk_st (s : State) : s.finishOk.st = .ok := rfl
@[simp] theorem State.finishOk_unl (s : State) : s.finishOk.unl = s.unl := rfl
@[simp] theorem State.finishOk_msw (s : State) : s.finishOk.msw = s.msw := rfl
@[simp] theorem State.finishOk_cheap (s : State) : s.finishOk.cheap = s.cheap := rfl
@[simp] theorem State.finishOk_pins (s : State) : s.finishOk.pins = s.pins := rfl
@[simp] theorem State.finishOk_hrsp (s : State) : s.finishOk.hrsp = s.hrsp := rfl
@[simp] theorem State.finishOk_host (s : State) : s.finishOk.host = s.host := rfl
@[simp] theorem State.finishOk_sizeFn (s : State) : s.finishOk.sizeFn = s.sizeFn := rfl
@[simp] theorem State.finishOk_inputs (s : State) : s.finishOk.inputs = s.inputs := rfl
@[simp] theorem State.finishOk_forced (s : State) : s.finishOk.forced = s.forced := rfl
@[simp] theorem State.finishOk_presented (s : State) : s.finishOk.presented = s.presented := rfl
@[simp] theorem State.finishOk_draws (s : State) : s.finishOk.draws = s.draws := rfl

@[simp] theorem State.startRun_buf (s : State) : s.startRun.buf = s.buf := rfl
@[simp] theorem State.startRun_cnt (s : State) : s.startRun.cnt = 0 := rfl
@[simp] theorem State.startRun_ph (s : State) : s.startRun.ph = .lTake := rfl
@[simp] theorem State.startRun_eidx (s : State) : s.startRun.eidx = s.eidx := rfl
@[simp] theorem State.startRun_asz (s : State) : s.startRun.asz = s.asz := rfl
@[simp] theorem State.startRun_st (s : State) : s.startRun.st = .none := rfl
@[simp] theorem State.startRun_unl (s : State) : s.startRun.unl = false := rfl
@[simp] theorem State.startRun_msw (s : State) : s.startRun.msw = false := rfl
@[simp] theorem State.startRun_cheap (s : State) : s.startRun.cheap = false := rfl
@[simp] theorem State.startRun_pins (s : State) : s.startRun.pins = s.pins := rfl
@[simp] theorem State.startRun_hrsp (s : State) : s.startRun.hrsp = s.hrsp := rfl
@[simp] theorem State.startRun_host (s : State) : s.startRun.host = s.host := rfl
@[simp] theorem State.startRun_sizeFn (s : State) : s.startRun.sizeFn = s.sizeFn := rfl
@[simp] theorem State.startRun_inputs (s : State) : s.startRun.inputs = s.inputs := rfl
@[simp] theorem State.startRun_forced (s : State) : s.startRun.forced = s.forced := rfl
@[simp] theorem State.startRun_presented (s : State) : s.startRun.presented = s.presented := rfl
@[simp] theorem State.startRun_draws (s : State) : s.startRun.draws = s.draws := rfl

@[simp] theorem State.goto_buf (s : State) (p : Phase) : (s.goto p).buf = s.buf := rfl
@[simp] theorem State.goto_cnt (s : State) (p : Phase) : (s.goto p).cnt = s.cnt := rfl
@[simp] theorem State.goto_ph (s : State) (p : Phase) : (s.goto p).ph = p := rfl
@[simp] theorem State.goto_eidx (s : State) (p : Phase) : (s.goto p).eidx = s.eidx := rfl
@[simp] theorem State.goto_asz (s : State) (p : Phase) : (s.goto p).asz = s.asz := rfl
@[simp] theorem State.goto_st (s : State) (p : Phase) : (s.goto p).st = s.st := rfl
@[simp] theorem State.goto_unl (s : State) (p : Phase) : (s.goto p).unl = s.unl := rfl
@[simp] theorem State.goto_msw (s : State) (p : Phase) : (s.goto p).msw = s.msw := rfl
@[simp] theorem State.goto_cheap (s : State) (p : Phase) : (s.goto p).cheap = s.cheap := rfl
@[simp] theorem State.goto_pins (s : State) (p : Phase) : (s.goto p).pins = s.pins := rfl
@[simp] theorem State.goto_hrsp (s : State) (p : Phase) : (s.goto p).hrsp = s.hrsp := rfl
@[simp] theorem State.goto_host (s : State) (p : Phase) : (s.goto p).host = s.host := rfl
@[simp] theorem State.goto_sizeFn (s : State) (p : Phase) : (s.goto p).sizeFn = s.sizeFn := rfl
@[simp] theorem State.goto_inputs (s : State) (p : Phase) : (s.goto p).inputs = s.inputs := rfl
@[simp] theorem State.goto_forced (s : State) (p : Phase) : (s.goto p).forced = s.forced := rfl
@[simp] theorem State.goto_presented (s : State) (p : Phase) : (s.goto p).presented = s.presented := rfl
@[simp] theorem State.goto_draws (s : State) (p : Phase) : (s.goto p).draws = s.draws := rfl

@[simp] theorem State.enterFlush_buf (s : State) (p : Phase) : (s.enterFlush p).buf = s.buf := rfl
@[simp] theorem State.enterFlush_cnt (s : State) (p : Phase) : (s.enterFlush p).cnt = s.cnt := rfl
@[simp] theorem State.enterFlush_ph (s : State) (p : Phase) : (s.enterFlush p).ph = p := rfl
@[simp] theorem State.enterFlush_eidx (s : State) (p : Phase) : (s.enterFlush p).eidx = 0 := rfl
@[simp] theorem State.enterFlush_asz (s : State) (p : Phase) : (s.enterFlush p).asz = s.asz := rfl
@[simp] theorem State.enterFlush_st (s : State) (p : Phase) : (s.enterFlush p).st = s.st := rfl
@[simp] theorem State.enterFlush_unl (s : State) (p : Phase) : (s.enterFlush p).unl = s.unl := rfl
@[simp] theorem State.enterFlush_msw (s : State) (p : Phase) : (s.enterFlush p).msw = s.msw := rfl
@[simp] theorem State.enterFlush_cheap (s : State) (p : Phase) : (s.enterFlush p).cheap = s.cheap := rfl
@[simp] theorem State.enterFlush_pins (s : State) (p : Phase) : (s.enterFlush p).pins = s.pins := rfl
@[simp] theorem State.enterFlush_hrsp (s : State) (p : Phase) : (s.enterFlush p).hrsp = s.hrsp := rfl
@[simp] theorem State.enterFlush_host (s : State) (p : Phase) : (s.enterFlush p).host = s.host := rfl
@[simp] theorem State.enterFlush_sizeFn (s : State) (p : Phase) : (s.enterFlush p).sizeFn = s.sizeFn := rfl
@[simp] theorem State.enterFlush_inputs (s : State) (p : Phase) : (s.enterFlush p).inputs = s.inputs := rfl
@[simp] theorem State.enterFlush_forced (s : State) (p : Phase) : (s.enterFlush p).forced = s.forced := rfl
@[simp] theorem State.enterFlush_presented (s : State) (p : Phase) : (s.enterFlush p).presented = s.presented := rfl
@[simp] theorem State.enterFlush_draws (s : State) (p : Phase) : (s.enterFlush p).draws = s.draws := rfl

@[simp] theorem State.push_buf (s : State) (c : Byte) : (s.push c).buf = s.buf.set s.cnt.toNat c := rfl
@[simp] theorem State.push_cnt (s : State) (c : Byte) : (s.push c).cnt = s.cnt + 1 := rfl
@[simp] theorem State.push_ph (s : State) (c : Byte) : (s.push c).ph = s.ph := rfl
@[simp] theorem State.push_eidx (s : State) (c : Byte) : (s.push c).eidx = s.eidx := rfl
@[simp] theorem State.push_asz (s : State) (c : Byte) : (s.push c).asz = s.asz := rfl
@[simp] theorem State.push_st (s : State) (c : Byte) : (s.push c).st = s.st := rfl
@[simp] theorem State.push_unl (s : State) (c : Byte) : (s.push c).unl = s.unl := rfl
@[simp] theorem State.push_msw (s : State) (c : Byte) : (s.push c).msw = s.msw := rfl
@[simp] theorem State.push_cheap (s : State) (c : Byte) : (s.push c).cheap = s.cheap := rfl
@[simp] theorem State.push_pins (s : State) (c : Byte) : (s.push c).pins = s.pins := rfl
@[simp] theorem State.push_hrsp (s : State) (c : Byte) : (s.push c).hrsp = s.hrsp := rfl
@[simp] theorem State.push_host (s : State) (c : Byte) : (s.push c).host = s.host := rfl
@[simp] theorem State.push_sizeFn (s : State) (c : Byte) : (s.push c).sizeFn = s.sizeFn := rfl
@[simp] theorem State.push_inputs (s : State) (c : Byte) : (s.push c).inputs = s.inputs := rfl
@[simp] theorem State.push_forced (s : State) (c : Byte) : (s.push c).forced = s.forced := rfl
@[simp] theorem State.push_presented (s : State) (c : Byte) : (s.push c).presented = s.presented := rfl
@[simp] theorem State.push_draws (s : State) (c : Byte) : (s.push c).draws = s.draws := rfl

@[simp] theorem State.fetched_buf (s : State) : s.fetched.buf = s.buf := rfl
@[simp] theorem State.fetched_cnt (s : State) : s.fetched.cnt = s.cnt := rfl
@[simp] theorem State.fetched_ph (s : State) : s.fetched.ph = s.ph := rfl
@[simp] theorem State.fetched_eidx (s : State) : s.fetched.eidx = s.eidx := rfl
@[simp] theorem State.fetched_asz (s : State) : s.fetched.asz = s.asz := rfl
@[simp] theorem State.fetched_st (s : State) : s.fetched.st = s.st := rfl
@[simp] theorem State.fetched_unl (s : State) : s.fetched.unl = s.unl := rfl
@[simp] theorem State.fetched_msw (s : State) : s.fetched.msw = s.msw := rfl
@[simp] theorem State.fetched_cheap (s : State) : s.fetched.cheap = s.cheap := rfl
@[simp] theorem State.fetched_pins (s : State) : s.fetched.pins = s.pins := rfl
@[simp] theorem State.fetched_hrsp (s : State) : s.fetched.hrsp = s.hrsp := rfl
@[simp] theorem State.fetched_host (s : State) : s.fetched.host = s.host := rfl
@[simp] theorem State.fetched_sizeFn (s : State) : s.fetched.sizeFn = s.sizeFn := rfl
@[simp] theorem State.fetched_inputs (s : State) : s.fetched.inputs = s.inputs := rfl
@[simp] theorem State.fetched_forced (s : State) : s.fetched.forced = s.forced := rfl
@[simp] theorem State.fetched_presented (s : State) : s.fetched.presented = s.presented.tail := rfl
@[simp] theorem State.fetched_draws (s : State) : s.fetched.draws = s.draws := rfl

@[simp] theorem State.deliver_buf (s : State) (r : Hrsp) : (s.deliver r).buf = s.buf := rfl
@[simp] theorem State.deliver_cnt (s : State) (r : Hrsp) : (s.deliver r).cnt = s.cnt := rfl
@[simp] theorem State.deliver_ph (s : State) (r : Hrsp) : (s.deliver r).ph = s.ph := rfl
@[simp] theorem State.deliver_eidx (s : State) (r : Hrsp) : (s.deliver r).eidx = s.eidx := rfl
@[simp] theorem State.deliver_asz (s : State) (r : Hrsp) : (s.deliver r).asz = s.asz := rfl
@[simp] theorem State.deliver_st (s : State) (r : Hrsp) : (s.deliver r).st = s.st := rfl
@[simp] theorem State.deliver_unl (s : State) (r : Hrsp) : (s.deliver r).unl = s.unl := rfl
@[simp] theorem State.deliver_msw (s : State) (r : Hrsp) : (s.deliver r).msw = s.msw := rfl
@[simp] theorem State.deliver_cheap (s : State) (r : Hrsp) : (s.deliver r).cheap = s.cheap := rfl
@[simp] theorem State.deliver_pins (s : State) (r : Hrsp) : (s.deliver r).pins = s.pins := rfl
@[simp] theorem State.deliver_hrsp (s : State) (r : Hrsp) : (s.deliver r).hrsp = s.forced.headD r := rfl
@[simp] theorem State.deliver_host (s : State) (r : Hrsp) : (s.deliver r).host = s.host := rfl
@[simp] theorem State.deliver_sizeFn (s : State) (r : Hrsp) : (s.deliver r).sizeFn = s.sizeFn := rfl
@[simp] theorem State.deliver_inputs (s : State) (r : Hrsp) : (s.deliver r).inputs = s.inputs := rfl
@[simp] theorem State.deliver_forced (s : State) (r : Hrsp) : (s.deliver r).forced = s.forced.tail := rfl
@[simp] theorem State.deliver_presented (s : State) (r : Hrsp) : (s.deliver r).presented = s.presented := rfl
@[simp] theorem State.deliver_draws (s : State) (r : Hrsp) : (s.deliver r).draws = s.draws + 1 := rfl

@[simp] theorem State.hostCount_toEngine (s : State) : s.hostCount.toEngine = s.toEngine := rfl
@[simp] theorem State.hostCount_host (s : State) : s.hostCount.host = s.host := rfl
@[simp] theorem State.hostCount_pins (s : State) : s.hostCount.pins = s.pins := rfl
@[simp] theorem State.hostCount_sizeFn (s : State) : s.hostCount.sizeFn = s.sizeFn := rfl
@[simp] theorem State.hostCount_inputs (s : State) : s.hostCount.inputs = s.inputs := rfl
@[simp] theorem State.hostCount_forced (s : State) : s.hostCount.forced = s.forced.tail := rfl
@[simp] theorem State.hostCount_presented (s : State) : s.hostCount.presented = s.presented := rfl
@[simp] theorem State.hostCount_draws (s : State) : s.hostCount.draws = s.draws + 1 := rfl

@[simp] theorem State.hostPeek_toEngine (s : State) : s.hostPeek.toEngine = s.toEngine := rfl
@[simp] theorem State.hostPeek_host (s : State) : s.hostPeek.host = s.host := rfl
@[simp] theorem State.hostPeek_pins (s : State) : s.hostPeek.pins = s.pins := rfl
@[simp] theorem State.hostPeek_sizeFn (s : State) : s.hostPeek.sizeFn = s.sizeFn := rfl
@[simp] theorem State.hostPeek_inputs (s : State) : s.hostPeek.inputs = s.inputs := rfl
@[simp] theorem State.hostPeek_forced (s : State) : s.hostPeek.forced = s.forced.tail := rfl
@[simp] theorem State.hostPeek_presented (s : State) : s.hostPeek.presented = s.presented := rfl
@[simp] theorem State.hostPeek_draws (s : State) : s.hostPeek.draws = s.draws + 1 := rfl

@[simp] theorem State.hostMore_toEngine (s : State) : s.hostMore.toEngine = s.toEngine := rfl
@[simp] theorem State.hostMore_host (s : State) : s.hostMore.host = s.host := rfl
@[simp] theorem State.hostMore_pins (s : State) : s.hostMore.pins = s.pins := rfl
@[simp] theorem State.hostMore_sizeFn (s : State) : s.hostMore.sizeFn = s.sizeFn := rfl
@[simp] theorem State.hostMore_inputs (s : State) : s.hostMore.inputs = s.inputs := rfl
@[simp] theorem State.hostMore_forced (s : State) : s.hostMore.forced = s.forced.tail := rfl
@[simp] theorem State.hostMore_presented (s : State) : s.hostMore.presented = s.presented := rfl
@[simp] theorem State.hostMore_draws (s : State) : s.hostMore.draws = s.draws + 1 := rfl

@[simp] theorem State.hostSpace_toEngine (s : State) (n : Nat) : (s.hostSpace n).toEngine = s.toEngine := rfl
@[simp] theorem State.hostSpace_host (s : State) (n : Nat) : (s.hostSpace n).host = s.host := rfl
@[simp] theorem State.hostSpace_pins (s : State) (n : Nat) : (s.hostSpace n).pins = s.pins := rfl
@[simp] theorem State.hostSpace_sizeFn (s : State) (n : Nat) : (s.hostSpace n).sizeFn = s.sizeFn := rfl
@[simp] theorem State.hostSpace_inputs (s : State) (n : Nat) : (s.hostSpace n).inputs = s.inputs := rfl
@[simp] theorem State.hostSpace_forced (s : State) (n : Nat) : (s.hostSpace n).forced = s.forced.tail := rfl
@[simp] theorem State.hostSpace_presented (s : State) (n : Nat) : (s.hostSpace n).presented = s.presented := rfl
@[simp] theorem State.hostSpace_draws (s : State) (n : Nat) : (s.hostSpace n).draws = s.draws + 1 := rfl

@[simp] theorem State.hostPushback_toEngine (s : State) (n : Nat) : (s.hostPushback n).toEngine = s.toEngine := rfl
@[simp] theorem State.hostPushback_host (s : State) (n : Nat) : (s.hostPushback n).host = { s.host with pos := s.host.posAfterPushback n s.draws } := rfl
@[simp] theorem State.hostPushback_pins (s : State) (n : Nat) : (s.hostPushback n).pins = s.pins := rfl
@[simp] theorem State.hostPushback_sizeFn (s : State) (n : Nat) : (s.hostPushback n).sizeFn = s.sizeFn := rfl
@[simp] theorem State.hostPushback_inputs (s : State) (n : Nat) : (s.hostPushback n).inputs = s.inputs := rfl
@[simp] theorem State.hostPushback_forced (s : State) (n : Nat) : (s.hostPushback n).forced = s.forced.tail := rfl
@[simp] theorem State.hostPushback_presented (s : State) (n : Nat) : (s.hostPushback n).presented = s.presented := rfl
@[simp] theorem State.hostPushback_draws (s : State) (n : Nat) : (s.hostPushback n).draws = s.draws + 1 := rfl

@[simp] theorem State.hostEmit_toEngine (s : State) (b : Byte) : (s.hostEmit b).toEngine = s.toEngine := rfl
@[simp] theorem State.hostEmit_host (s : State) (b : Byte) : (s.hostEmit b).host = { s.host with out := s.host.out ++ [b] } := rfl
@[simp] theorem State.hostEmit_pins (s : State) (b : Byte) : (s.hostEmit b).pins = s.pins := rfl
@[simp] theorem State.hostEmit_sizeFn (s : State) (b : Byte) : (s.hostEmit b).sizeFn = s.sizeFn := rfl
@[simp] theorem State.hostEmit_inputs (s : State) (b : Byte) : (s.hostEmit b).inputs = s.inputs := rfl
@[simp] theorem State.hostEmit_forced (s : State) (b : Byte) : (s.hostEmit b).forced = s.forced.tail := rfl
@[simp] theorem State.hostEmit_presented (s : State) (b : Byte) : (s.hostEmit b).presented = s.presented := rfl
@[simp] theorem State.hostEmit_draws (s : State) (b : Byte) : (s.hostEmit b).draws = s.draws + 1 := rfl

@[simp] theorem State.beginEmits_toEngine (s : State) (b : Byte) (l : List Byte) : (s.beginEmits (b :: l)).toEngine = s.toEngine := rfl
@[simp] theorem State.beginEmits_host (s : State) (b : Byte) (l : List Byte) : (s.beginEmits (b :: l)).host = { s.host with out := s.host.out ++ [b] } := rfl
@[simp] theorem State.beginEmits_pins (s : State) (b : Byte) (l : List Byte) : (s.beginEmits (b :: l)).pins = s.pins := rfl
@[simp] theorem State.beginEmits_hrsp (s : State) (b : Byte) (l : List Byte) : (s.beginEmits (b :: l)).hrsp = (s.hostEmit b).hrsp := rfl
@[simp] theorem State.beginEmits_sizeFn (s : State) (b : Byte) (l : List Byte) : (s.beginEmits (b :: l)).sizeFn = s.sizeFn := rfl
@[simp] theorem State.beginEmits_inputs (s : State) (b : Byte) (l : List Byte) : (s.beginEmits (b :: l)).inputs = s.inputs := rfl
@[simp] theorem State.beginEmits_forced (s : State) (b : Byte) (l : List Byte) : (s.beginEmits (b :: l)).forced = s.forced.tail := rfl
@[simp] theorem State.beginEmits_presented (s : State) (b : Byte) (l : List Byte) : (s.beginEmits (b :: l)).presented = l.map (fun c => encode (.emit c)) ++ s.presented := rfl
@[simp] theorem State.beginEmits_draws (s : State) (b : Byte) (l : List Byte) : (s.beginEmits (b :: l)).draws = s.draws + 1 := rfl

@[simp] theorem State.hostSetMode_toEngine (s : State) : s.hostSetMode.toEngine = s.toEngine := rfl
@[simp] theorem State.hostSetMode_host (s : State) : s.hostSetMode.host = { s.host with mode := .default } := rfl
@[simp] theorem State.hostSetMode_pins (s : State) : s.hostSetMode.pins = s.pins := rfl
@[simp] theorem State.hostSetMode_sizeFn (s : State) : s.hostSetMode.sizeFn = s.sizeFn := rfl
@[simp] theorem State.hostSetMode_inputs (s : State) : s.hostSetMode.inputs = s.inputs := rfl
@[simp] theorem State.hostSetMode_forced (s : State) : s.hostSetMode.forced = s.forced.tail := rfl
@[simp] theorem State.hostSetMode_presented (s : State) : s.hostSetMode.presented = s.presented := rfl
@[simp] theorem State.hostSetMode_draws (s : State) : s.hostSetMode.draws = s.draws + 1 := rfl

@[simp] theorem State.hostSwitchq_toEngine (s : State) : s.hostSwitchq.toEngine = s.toEngine := rfl
@[simp] theorem State.hostSwitchq_host (s : State) : s.hostSwitchq.host = { s.host with sw := s.host.sw.tail } := rfl
@[simp] theorem State.hostSwitchq_pins (s : State) : s.hostSwitchq.pins = s.pins := rfl
@[simp] theorem State.hostSwitchq_sizeFn (s : State) : s.hostSwitchq.sizeFn = s.sizeFn := rfl
@[simp] theorem State.hostSwitchq_inputs (s : State) : s.hostSwitchq.inputs = s.inputs := rfl
@[simp] theorem State.hostSwitchq_forced (s : State) : s.hostSwitchq.forced = s.forced.tail := rfl
@[simp] theorem State.hostSwitchq_presented (s : State) : s.hostSwitchq.presented = s.presented := rfl
@[simp] theorem State.hostSwitchq_draws (s : State) : s.hostSwitchq.draws = s.draws + 1 := rfl

@[simp] theorem State.hostTake_toEngine (s : State) : s.hostTake.toEngine = s.toEngine := by
  unfold State.hostTake; split <;> rfl
@[simp] theorem State.hostTake_pins (s : State) : s.hostTake.pins = s.pins := by
  unfold State.hostTake; split <;> rfl
@[simp] theorem State.hostTake_sizeFn (s : State) : s.hostTake.sizeFn = s.sizeFn := by
  unfold State.hostTake; split <;> rfl
@[simp] theorem State.hostTake_inputs (s : State) : s.hostTake.inputs = s.inputs := by
  unfold State.hostTake; split <;> rfl
@[simp] theorem State.hostTake_forced (s : State) : s.hostTake.forced = s.forced.tail := by
  unfold State.hostTake; split <;> rfl
@[simp] theorem State.hostTake_presented (s : State) : s.hostTake.presented = s.presented := by
  unfold State.hostTake; split <;> rfl
@[simp] theorem State.hostTake_draws (s : State) : s.hostTake.draws = s.draws + 1 := by
  unfold State.hostTake; split <;> rfl

/-! The engine as a whole after each engine update. -/

theorem State.takeException_toEngine (s : State) (e : Exc) :
    (s.takeException e).toEngine = { s.toEngine with st := e.status, cnt := 0, ph := .halt } := rfl
theorem State.finishOk_toEngine (s : State) :
    s.finishOk.toEngine = { s.toEngine with st := .ok, cnt := 0, ph := .halt } := rfl
theorem State.startRun_toEngine (s : State) :
    s.startRun.toEngine = { s.toEngine with
      cnt := 0, st := .none, unl := false, msw := false, cheap := false, ph := .lTake } := rfl
theorem State.goto_toEngine (s : State) (p : Phase) :
    (s.goto p).toEngine = { s.toEngine with ph := p } := rfl
theorem State.enterFlush_toEngine (s : State) (p : Phase) :
    (s.enterFlush p).toEngine = { s.toEngine with eidx := 0, ph := p } := rfl
theorem State.push_toEngine (s : State) (c : Byte) :
    (s.push c).toEngine = { s.toEngine with
      buf := s.buf.set s.cnt.toNat c, cnt := s.cnt + 1 } := rfl
theorem State.setUnl_toEngine (s : State) : s.setUnl.toEngine = { s.toEngine with unl := true } := rfl
theorem State.setMsw_toEngine (s : State) : s.setMsw.toEngine = { s.toEngine with msw := true } := rfl
theorem State.setCheap_toEngine (s : State) :
    s.setCheap.toEngine = { s.toEngine with cheap := true } := rfl

/-- Sampling leaves the engine as it is. -/
@[simp] theorem State.sample_toEngine (s : State) : s.sample.toEngine = s.toEngine := rfl
@[simp] theorem State.sample_pins (s : State) : s.sample.pins = s.nextSample.pins := rfl
@[simp] theorem State.sample_hrsp (s : State) : s.sample.hrsp = s.hrsp := rfl
@[simp] theorem State.sample_sizeFn (s : State) : s.sample.sizeFn = s.sizeFn := rfl
@[simp] theorem State.sample_inputs (s : State) : s.sample.inputs = s.inputs.tail := rfl
@[simp] theorem State.sample_forced (s : State) : s.sample.forced = s.forced := rfl
@[simp] theorem State.sample_presented (s : State) : s.sample.presented = s.presented := rfl
@[simp] theorem State.sample_draws (s : State) : s.sample.draws = s.draws := rfl
@[simp] theorem State.fetched_toEngine (s : State) : s.fetched.toEngine = s.toEngine := rfl

end Sys2Proof.Machine
end

