-- ==== Sys2Proof/Laws/Ops.lean ====
section
/-! SUPPORT. What each shared operation can do, said once: the flush step, the check of the free cell,
the answers of a host that answers for itself, and that no operation moves the cursor out of the
input. -/

namespace Sys2Proof.Machine

/-! ### Checked operations -/

theorem withFreeCell_next (s t u : State) :
    withFreeCell s t = .next u ↔ s.cnt.toNat ≤ 3 ∧ t = u := by
  unfold withFreeCell; split <;> simp [*]

theorem withFreeCell_ok {s : State} (t : State) (h : s.cnt.toNat ≤ 3) : withFreeCell s t = .next t := by
  simp [withFreeCell, h]

/-- A flush step inside its operand range (R144, R171). -/
theorem flushStep_ok {self : Phase} {last : State → State} {s : State} (h1 : 1 ≤ s.cnt.toNat)
    (h4 : s.cnt.toNat ≤ 4) (hi : s.eidx.toNat < ncw s.cnt.toNat) :
    flushStep self last s = .next
      (if s.eidx.toNat = ncw s.cnt.toNat - 1 then
        last (s.hostEmit (s.buf.cw s.eidx.toNat s.cnt.toNat))
      else { s.hostEmit (s.buf.cw s.eidx.toNat s.cnt.toNat) with eidx := s.eidx + 1, ph := self }) := by
  have h0 : s.cnt ≠ 0 := by intro h; simp [h] at h1
  unfold flushStep
  rw [if_neg (by rintro (h | h); exacts [h0 h, by omega]), if_neg (by omega)]

/-- A flush step that answers a next state was inside its operand range. -/
theorem flushStep_next {self : Phase} {last : State → State} {s t : State}
    (h : flushStep self last s = .next t) :
    1 ≤ s.cnt.toNat ∧ s.cnt.toNat ≤ 4 ∧ s.eidx.toNat < ncw s.cnt.toNat ∧
    t = (if s.eidx.toNat = ncw s.cnt.toNat - 1 then
        last (s.hostEmit (s.buf.cw s.eidx.toNat s.cnt.toNat))
      else { s.hostEmit (s.buf.cw s.eidx.toNat s.cnt.toNat) with eidx := s.eidx + 1, ph := self }) := by
  by_cases hr : 1 ≤ s.cnt.toNat ∧ s.cnt.toNat ≤ 4 ∧ s.eidx.toNat < ncw s.cnt.toNat
  · obtain ⟨h1, h4, hi⟩ := hr
    rw [flushStep_ok h1 h4 hi] at h
    exact ⟨h1, h4, hi, by simpa using h.symm⟩
  · exfalso
    unfold flushStep at h
    split at h
    · simp at h
    · rename_i hc
      split at h
      · simp at h
      · rename_i hn
        apply hr
        simp only [not_or, not_lt] at hc
        refine ⟨?_, hc.2, by omega⟩
        rcases Nat.eq_zero_or_pos s.cnt.toNat with h0 | h0
        · exact absurd (BitVec.eq_of_toNat_eq (by simpa using h0)) hc.1
        · exact h0

/-! ### The answers of a host that answers for itself -/

/-- `TAKE` (R191): the answer is the character at the cursor, if there is one. -/
theorem hostTake_char? {s : State} (hf : s.forced = []) :
    s.hostTake.hrsp.char? = s.host.inp[s.host.pos]? := by
  have hg : s.host.inp[s.host.pos]? = (s.host.inp.drop s.host.pos).head? := by simp
  unfold State.hostTake HostCtx.unread
  rw [hg]
  cases s.host.inp.drop s.host.pos <;> simp [hf, Hrsp.char?, State.deliver]

/-- `TAKE` (R191): the cursor moves past the character, if there is one; nothing else of the host
changes. -/
theorem hostTake_host (s : State) :
    s.hostTake.host =
      { s.host with pos := if s.host.pos < s.host.inp.length then s.host.pos + 1 else s.host.pos } := by
  unfold State.hostTake HostCtx.unread
  by_cases h : s.host.pos < s.host.inp.length
  · rw [List.drop_eq_getElem_cons h]; simp [h]
  · rw [List.drop_eq_nil_of_le (by omega)]; simp [h]

theorem hostCount_int {s : State} (hf : s.forced = []) :
    s.hostCount.hrsp.int = s.host.inp.length - s.host.pos := by
  simp [State.hostCount, hf]

theorem hostMore_flag {s : State} (hf : s.forced = []) :
    s.hostMore.hrsp.flag = decide (s.host.pos < s.host.inp.length) := by
  simp [State.hostMore, hf]

theorem hostSpace_space? {s : State} (hf : s.forced = []) (n : Nat) :
    (s.hostSpace n).hrsp.space? = s.host.spaceFor n := by
  simp only [State.hostSpace, State.deliver_hrsp, hf, List.headD_nil, Hrsp.space?]
  cases s.host.spaceFor n <;> simp

theorem hostSwitchq_flag {s : State} (hf : s.forced = []) :
    s.hostSwitchq.hrsp.flag = s.host.switchFor s.draws := by
  simp [State.hostSwitchq, hf]

/-- `PEEK` (R193): `len` is the number of characters returned, at most 4. -/
theorem hostPeek_len {s : State} (hf : s.forced = []) :
    s.hostPeek.hrsp.len.toNat = min (s.host.inp.length - s.host.pos) 4 := by
  simp only [State.hostPeek, State.deliver_hrsp, hf, List.headD_nil, HostCtx.unread]
  simp
  omega

/-- `PEEK` (R193): the lanes below `len` are the unconsumed characters, in order. -/
theorem hostPeek_preview {s : State} (hf : s.forced = []) {m : Nat}
    (hm : m ≤ s.hostPeek.hrsp.len.toNat) : s.hostPeek.hrsp.preview m = s.host.unread.take m := by
  have hl := hostPeek_len hf
  have hu : s.host.unread.length = s.host.inp.length - s.host.pos := by simp [HostCtx.unread]
  rw [hl, ← hu] at hm
  simp only [State.hostPeek, State.deliver_hrsp, hf, List.headD_nil, Hrsp.preview]
  generalize s.host.unread = u at hm
  rcases u with _ | ⟨a, _ | ⟨b, _ | ⟨c, _ | ⟨d, u⟩⟩⟩⟩ <;> simp at hm ⊢
  · simp [hm]
  · rcases m with _ | m <;> simp_all
  · rcases m with _ | _ | m <;> simp_all
  · rcases m with _ | _ | _ | m <;> simp_all
    omega
  · rcases m with _ | _ | _ | _ | m <;> simp_all
    omega

/-! ### The cursor stays within the input (R51) -/

theorem hostTake_wf {s : State} (h : Memory.wf s.host) : Memory.wf s.hostTake.host := by
  rw [hostTake_host]; simp only [Memory.wf] at *; split <;> omega

theorem posAfterPushback_of_taken {h : HostCtx} {n : Nat} (draw : Nat) (hn : n ≤ h.pos) :
    h.posAfterPushback n draw = h.pos - n := if_pos hn

theorem posAfterPushback_of_beyond {h : HostCtx} {n : Nat} (draw : Nat) (hn : h.pos < n) :
    h.posAfterPushback n draw = min (Config.pushbackPos draw) h.inp.length := if_neg (by omega)

theorem posAfterPushback_wf {h : HostCtx} (n draw : Nat) (hw : Memory.wf h) :
    h.posAfterPushback n draw ≤ h.inp.length := by
  unfold HostCtx.posAfterPushback
  split
  · exact (Nat.sub_le _ _).trans hw
  · exact Nat.min_le_right _ _

theorem hostPushback_wf {s : State} (n : Nat) (h : Memory.wf s.host) :
    Memory.wf (s.hostPushback n).host := by
  simpa [Memory.wf] using posAfterPushback_wf n s.draws h

theorem hostEmit_wf {s : State} (b : Byte) (h : Memory.wf s.host) : Memory.wf (s.hostEmit b).host := by
  simpa [Memory.wf] using h

theorem beginEmits_wf {s : State} (l : List Byte) (h : Memory.wf s.host) :
    Memory.wf (s.beginEmits l).host := by
  cases l with
  | nil => exact h
  | cons b l => simpa [Memory.wf] using h

theorem hostSetMode_wf {s : State} (h : Memory.wf s.host) : Memory.wf s.hostSetMode.host := by
  simpa [Memory.wf] using h

theorem hostSwitchq_wf {s : State} (h : Memory.wf s.host) : Memory.wf s.hostSwitchq.host := by
  simpa [Memory.wf] using h

theorem hostCount_wf {s : State} (h : Memory.wf s.host) : Memory.wf s.hostCount.host := h

theorem hostPeek_wf {s : State} (h : Memory.wf s.host) : Memory.wf s.hostPeek.host := h

theorem hostMore_wf {s : State} (h : Memory.wf s.host) : Memory.wf s.hostMore.host := h

theorem hostSpace_wf {s : State} (n : Nat) (h : Memory.wf s.host) : Memory.wf (s.hostSpace n).host := h

end Sys2Proof.Machine
end

