-- ==== Sys2Proof/Laws/PerInstr.lean ====
section
/-! SUPPORT. One lemma per operation, by family. `FitsChannel`: the word of the operation stands on a
channel of the spec and has no bit above the channel's width, so that the decoder's width check never
rejects an encoded word. -/

namespace Sys2Proof.Laws.FitsChannel

/-- The word of `i` stands on a channel and fits it. -/
def Statement (i : Instr) : Prop :=
  (encode i).fmt ≠ .unknown ∧ (encode i).bits.toNat < 2 ^ (encode i).fmt.width

theorem phase_known : Fmt.phase ≠ .unknown := nofun

theorem hcmd_known : Fmt.hcmd ≠ .unknown := nofun

theorem char_known : Fmt.char ≠ .unknown := nofun

theorem phaseWord_fits (p : BitVec 4) : (phaseWord p).bits.toNat < 2 ^ (phaseWord p).fmt.width := by
  simp [phaseWord, Fmt.width]; omega

theorem hcmdWord_fits (op : BitVec 4) (arg : Byte) :
    (hcmdWord op arg).bits.toNat < 2 ^ (hcmdWord op arg).fmt.width := by
  have := (op ++ arg).isLt
  simp only [hcmdWord, Fmt.width, BitVec.toNat_setWidth] at *; omega

theorem charWord_fits (c : Byte) : (charWord c).bits.toNat < 2 ^ (charWord c).fmt.width := by
  simp [charWord, Fmt.width]; omega

theorem setWidth8_fits (x : Byte) : (x.setWidth 24).toNat < 2 ^ 8 := by
  simp; omega

theorem idle : Statement .idle :=
  ⟨phase_known, phaseWord_fits _⟩

theorem lTake : Statement .lTake :=
  ⟨phase_known, phaseWord_fits _⟩

theorem lFlush : Statement .lFlush :=
  ⟨phase_known, phaseWord_fits _⟩

theorem lSwq : Statement .lSwq :=
  ⟨phase_known, phaseWord_fits _⟩

theorem eCnt : Statement .eCnt :=
  ⟨phase_known, phaseWord_fits _⟩

theorem ePeek : Statement .ePeek :=
  ⟨phase_known, phaseWord_fits _⟩

theorem eSpc1 : Statement .eSpc1 :=
  ⟨phase_known, phaseWord_fits _⟩

theorem ePb : Statement .ePb :=
  ⟨phase_known, phaseWord_fits _⟩

theorem eMore : Statement .eMore :=
  ⟨phase_known, phaseWord_fits _⟩

theorem eSpc0 : Statement .eSpc0 :=
  ⟨phase_known, phaseWord_fits _⟩

theorem eUnlp : Statement .eUnlp :=
  ⟨phase_known, phaseWord_fits _⟩

theorem eUnls : Statement .eUnls :=
  ⟨phase_known, phaseWord_fits _⟩

theorem eSpck : Statement .eSpck :=
  ⟨phase_known, phaseWord_fits _⟩

theorem eMode : Statement .eMode :=
  ⟨phase_known, phaseWord_fits _⟩

theorem eFlush : Statement .eFlush :=
  ⟨phase_known, phaseWord_fits _⟩

theorem halt : Statement .halt :=
  ⟨phase_known, phaseWord_fits _⟩

theorem start : Statement .start :=
  ⟨by decide, by decide⟩

theorem nop : Statement .nop :=
  ⟨hcmd_known, hcmdWord_fits _ _⟩

theorem take : Statement .take :=
  ⟨hcmd_known, hcmdWord_fits _ _⟩

theorem count : Statement .count :=
  ⟨hcmd_known, hcmdWord_fits _ _⟩

theorem peek : Statement .peek :=
  ⟨hcmd_known, hcmdWord_fits _ _⟩

theorem more : Statement .more :=
  ⟨hcmd_known, hcmdWord_fits _ _⟩

theorem pushback (n : BitVec 2) : Statement (.pushback n) :=
  ⟨hcmd_known, hcmdWord_fits _ _⟩

theorem emit (cw : Byte) : Statement (.emit cw) :=
  ⟨hcmd_known, hcmdWord_fits _ _⟩

theorem space (n : BitVec 2) : Statement (.space n) :=
  ⟨hcmd_known, hcmdWord_fits _ _⟩

theorem setmode (mode : BitVec 3) : Statement (.setmode mode) :=
  ⟨hcmd_known, hcmdWord_fits _ _⟩

theorem switchq : Statement .switchq :=
  ⟨hcmd_known, hcmdWord_fits _ _⟩

theorem reserved10 (arg : Byte) : Statement (.reserved10 arg) :=
  ⟨hcmd_known, hcmdWord_fits _ _⟩

theorem reserved11 (arg : Byte) : Statement (.reserved11 arg) :=
  ⟨hcmd_known, hcmdWord_fits _ _⟩

theorem reserved12 (arg : Byte) : Statement (.reserved12 arg) :=
  ⟨hcmd_known, hcmdWord_fits _ _⟩

theorem reserved13 (arg : Byte) : Statement (.reserved13 arg) :=
  ⟨hcmd_known, hcmdWord_fits _ _⟩

theorem reserved14 (arg : Byte) : Statement (.reserved14 arg) :=
  ⟨hcmd_known, hcmdWord_fits _ _⟩

theorem reserved15 (arg : Byte) : Statement (.reserved15 arg) :=
  ⟨hcmd_known, hcmdWord_fits _ _⟩

theorem chUnl : Statement .chUnl :=
  ⟨char_known, charWord_fits _⟩

theorem chLow (x : BitVec 5) : Statement (.chLow x) :=
  ⟨char_known, charWord_fits _⟩

theorem chA (x : BitVec 5) : Statement (.chA x) :=
  ⟨char_known, charWord_fits _⟩

theorem chB40 (x : BitVec 4) : Statement (.chB40 x) :=
  ⟨char_known, charWord_fits _⟩

theorem chB50 (x : BitVec 3) : Statement (.chB50 x) :=
  ⟨char_known, charWord_fits _⟩

theorem chB58 (x : BitVec 2) : Statement (.chB58 x) :=
  ⟨char_known, charWord_fits _⟩

theorem chB5C (x : BitVec 1) : Statement (.chB5C x) :=
  ⟨char_known, charWord_fits _⟩

theorem chB5E : Statement .chB5E :=
  ⟨char_known, charWord_fits _⟩

theorem chHi1 (x : BitVec 5) : Statement (.chHi1 x) :=
  ⟨char_known, charWord_fits _⟩

theorem chHi2 (x : BitVec 7) : Statement (.chHi2 x) :=
  ⟨char_known, charWord_fits _⟩

theorem cw0 (a : BitVec 6) (b : BitVec 2) : Statement (.cw0 a b) :=
  ⟨nofun, setWidth8_fits _⟩

theorem cw1 (b : BitVec 4) (c : BitVec 4) : Statement (.cw1 b c) :=
  ⟨nofun, setWidth8_fits _⟩

theorem cw2 (c : BitVec 2) (d : BitVec 6) : Statement (.cw2 c d) :=
  ⟨nofun, setWidth8_fits _⟩

theorem unlatchcw : Statement .unlatchcw :=
  ⟨by decide, by decide⟩

theorem pack4 (a b c d : Value) : Statement (.pack4 a b c d) :=
  ⟨nofun, (encode _).bits.isLt⟩

theorem pack3 (a b c : Value) : Statement (.pack3 a b c) :=
  ⟨nofun, (encode _).bits.isLt⟩

theorem pack2 (a b : Value) : Statement (.pack2 a b) := by
  refine ⟨nofun, ?_⟩
  have := (a ++ b ++ 0#4).isLt
  simp only [encode, Fmt.width, BitVec.toNat_setWidth] at *; omega

theorem pack1 (a : Value) : Statement (.pack1 a) :=
  ⟨nofun, setWidth8_fits _⟩

end Sys2Proof.Laws.FitsChannel
end

