-- ==== Sys2Proof/Laws/Step.lean ====
section
/-! SUPPORT. What one step can be: reset, a wait, or the fetched operation. -/

namespace Sys2Proof.Machine

/-- A phase code decodes to its phase's operation. -/
theorem decode_phaseWord (p : Phase) : decode (phaseWord p.code) = .ok (decodePhase p.code) := by
  cases p <;> decide

theorem decode_startWord : decode ⟨.pin, 1⟩ = .ok .start := by decide

/-- With no presented word the step fetches `START` or the operation of `PH`, and that decodes. -/
theorem decode_fetch {s : State} (hp : s.presented = []) :
    decode s.fetch =
      .ok (if s.pins.start && !s.ph.busy then .start else decodePhase s.ph.code) := by
  simp only [State.fetch, hp]
  split <;> [exact decode_startWord; exact decode_phaseWord _]

/-- Every next state of a step: the reset state, the sampled state of a wait, or the result of the
fetched operation. -/
theorem step_cases {s t : State} (h : step s = .next t) :
    (s.nextSample.pins.rst = true ∧ t = s.sample.resetEngine) ∨
    (s.nextSample.pins.rst = false ∧ s.sample.waiting = true ∧ t = s.sample) ∨
    (s.nextSample.pins.rst = false ∧ s.sample.waiting = false ∧
      ∃ i, decode s.sample.fetch = .ok i ∧ exec i s.sample.fetched = .next t) := by
  by_cases hr : s.nextSample.pins.rst = true
  · exact .inl ⟨hr, by simpa [step, hr] using h.symm⟩
  · rw [Bool.not_eq_true] at hr
    by_cases hw : s.sample.waiting = true
    · exact .inr (.inl ⟨hr, hw, by simpa [step, hr, hw] using h.symm⟩)
    · rw [Bool.not_eq_true] at hw
      simp only [step, State.sample_pins, hr, hw, Bool.false_eq_true, if_false] at h
      cases hd : decode s.sample.fetch with
      | ok i => rw [hd] at h; exact .inr (.inr ⟨hr, hw, i, rfl, h⟩)
      | error e => rw [hd] at h; simp at h

/-- A step that neither resets nor waits runs the fetched operation. -/
theorem step_run {s : State} {i : Instr} (hr : s.nextSample.pins.rst = false)
    (hw : s.sample.waiting = false) (hd : decode s.sample.fetch = .ok i) :
    step s = exec i s.sample.fetched := by
  simp [step, hr, hw, hd]

/-! ### Presented words -/

theorem decode_emit (b : Byte) : decode (encode (.emit b)) = .ok (.emit b) := by
  revert b; decide

/-- A step with an `EMIT` presented performs that one command and takes the word off. -/
theorem step_presentedEmit {s : State} {b : Byte} {rest : List TableWord}
    (hr : s.nextSample.pins.rst = false) (hp : s.presented = encode (.emit b) :: rest) :
    step s = .next ({ s.sample with presented := rest }.hostEmit b) := by
  have hf : s.sample.fetched = { s.sample with presented := rest } := by simp [State.fetched, hp]
  rw [step_run hr (by simp [State.waiting, hp]) (i := .emit b)
    (by simpa [State.fetch, hp] using decode_emit b), hf]
  rfl

/-- With no input scheduled, presented `EMIT`s are performed one a step, in order. -/
theorem run_presentedEmits (l : List Byte) {s : State} {rest : List TableWord} (hi : s.inputs = [])
    (hp : s.presented = l.map (fun c => encode (.emit c)) ++ rest) :
    ∃ t, Host.Core.run core l.length s = .next t ∧ t.toEngine = s.toEngine ∧
      t.host = { s.host with out := s.host.out ++ l } ∧ t.presented = rest ∧ t.inputs = [] ∧
      t.sizeFn = s.sizeFn ∧ t.forced = s.forced.drop l.length ∧ t.draws = s.draws + l.length := by
  induction l generalizing s with
  | nil => exact ⟨s, rfl, rfl, by simp, by simpa using hp, hi, rfl, rfl, rfl⟩
  | cons b l ih =>
    have hn : s.nextSample = ⟨Pins.quiet, none⟩ := by simp [State.nextSample, hi]
    have hh : s.sample.host = s.host := by simp [State.sample, hn]
    have hs := step_presentedEmit (s := s) (by rw [hn]; rfl) (by simpa using hp)
    obtain ⟨t, ht, he, hhost, hpr, hin, hz, hf, hd⟩ :=
      ih (s := { s.sample with presented := _ }.hostEmit b) (by simp [hi]) rfl
    refine ⟨t, ?_, by simp [he], ?_, hpr, hin, by simp [hz], ?_, ?_⟩
    · have : core.step s = .next _ := hs
      simpa [Host.Core.run, this] using ht
    · simp [hhost, hh]
    · simp [hf]
    · simp [hd]; omega

end Sys2Proof.Machine
end

