-- ==== Sys2Proof/Tests/Slice0.lean ====
section
/-! SUPPORT. Tests of the model. Expected results are those of `95_test_vectors.md` (the vector is named
beside the test) or written out from the encodings of `30_encoding.md` and `10_state.md`. Then, for every
statement with hypotheses, a state and operands that meet them. -/

namespace Sys2Proof.Tests

open Sys2Proof.Machine

/-! ### Helpers -/

/-- A next state that satisfies `p`. -/
def nextIs (o : Host.Outcome State Fault Refusal) (p : State → Bool) : Bool :=
  match o with
  | .next t => p t
  | .fault _ => false
  | .refused _ => false

/-- A phase with `CNT` and the cells, attached to the host `RH(C)` (R201) and the size function of G2. -/
def at_ (ph : Phase) (cnt : BitVec 3) (buf : Buf) (inp : List Byte) (pos : Nat) (c : Option Nat) : State :=
  { State.reset with
    ph := ph, cnt := cnt, buf := buf, sizeFn := .reference
    host := ⟨inp, pos, [], .edifact, .fixed c, [], some false⟩ }

/-- Cells that hold nothing of interest. -/
def stale : Buf := ⟨0x7F, 0x7F, 0x7F, 0x7F⟩

/-- "ABCD" in the cells. -/
def abcd : Buf := ⟨0x41, 0x42, 0x43, 0x44⟩

/-- A response word with this flag and natural. -/
def rsp (flag : Bool) (n : Nat) : Hrsp := ⟨flag, n, 0, 0, 0, 0, 0⟩

/-- The response word `r` arrives next. -/
def forcing (s : State) (r : Hrsp) : State := { s with forced := [r] }

/-- The sink holds the three codewords of "ABCD", as in V-H. -/
def afterAbcd (inp : List Byte) (pos : Nat) (c : Option Nat) : State :=
  { State.reset with host := ⟨inp, pos, [0x04, 0x20, 0xC4], .edifact, .fixed c, [true, false], some false⟩ }

/-- The pins of one step. -/
def pinned (s : State) (rst start rspValid : Bool) : State :=
  { s with inputs := [⟨⟨rst, start, rspValid⟩, none⟩] }

/-! ### WellFormed: an ill-formed term for each check -/

theorem test_wf_refuses_other_modes : (Instr.setmode 1).wellFormed = false := by decide
theorem test_wf_refuses_reserved10 : (Instr.reserved10 0).wellFormed = false := by decide
theorem test_wf_refuses_reserved11 : (Instr.reserved11 0).wellFormed = false := by decide
theorem test_wf_refuses_reserved12 : (Instr.reserved12 0).wellFormed = false := by decide
theorem test_wf_refuses_reserved13 : (Instr.reserved13 0).wellFormed = false := by decide
theorem test_wf_refuses_reserved14 : (Instr.reserved14 0).wellFormed = false := by decide
theorem test_wf_refuses_reserved15 : (Instr.reserved15 0).wellFormed = false := by decide
theorem test_wf_accepts_default_mode : (Instr.setmode 0).wellFormed = true := by decide

/-! ### Decoding: every constructor from a word written out from the spec's encoding -/

/-- The phase codes of R25. -/
theorem test_decode_phases :
    decode ⟨.phase, 0b0000#24⟩ = .ok .idle ∧ decode ⟨.phase, 0b0001#24⟩ = .ok .lTake ∧
    decode ⟨.phase, 0b0010#24⟩ = .ok .lFlush ∧ decode ⟨.phase, 0b0011#24⟩ = .ok .lSwq ∧
    decode ⟨.phase, 0b0100#24⟩ = .ok .eCnt ∧ decode ⟨.phase, 0b0101#24⟩ = .ok .ePeek ∧
    decode ⟨.phase, 0b0110#24⟩ = .ok .eSpc1 ∧ decode ⟨.phase, 0b0111#24⟩ = .ok .ePb ∧
    decode ⟨.phase, 0b1000#24⟩ = .ok .eMore ∧ decode ⟨.phase, 0b1001#24⟩ = .ok .eSpc0 ∧
    decode ⟨.phase, 0b1010#24⟩ = .ok .eUnlp ∧ decode ⟨.phase, 0b1011#24⟩ = .ok .eUnls ∧
    decode ⟨.phase, 0b1100#24⟩ = .ok .eSpck ∧ decode ⟨.phase, 0b1101#24⟩ = .ok .eMode ∧
    decode ⟨.phase, 0b1110#24⟩ = .ok .eFlush ∧ decode ⟨.phase, 0b1111#24⟩ = .ok .halt := by decide

theorem test_decode_start : decode ⟨.pin, 0b1#24⟩ = .ok .start := by decide

/-- V-HC: the command words. -/
theorem test_decode_commands :
    decode ⟨.hcmd, 0x000#24⟩ = .ok .nop ∧ decode ⟨.hcmd, 0x100#24⟩ = .ok .take ∧
    decode ⟨.hcmd, 0x200#24⟩ = .ok .count ∧ decode ⟨.hcmd, 0x300#24⟩ = .ok .peek ∧
    decode ⟨.hcmd, 0x400#24⟩ = .ok .more ∧ decode ⟨.hcmd, 0x502#24⟩ = .ok (.pushback 2) ∧
    decode ⟨.hcmd, 0x67C#24⟩ = .ok (.emit 0x7C) ∧ decode ⟨.hcmd, 0x703#24⟩ = .ok (.space 3) ∧
    decode ⟨.hcmd, 0x800#24⟩ = .ok (.setmode 0) ∧ decode ⟨.hcmd, 0x900#24⟩ = .ok .switchq := by decide

/-- R92, last row. -/
theorem test_decode_reserved :
    decode ⟨.hcmd, 0xA01#24⟩ = .ok (.reserved10 1) ∧ decode ⟨.hcmd, 0xB02#24⟩ = .ok (.reserved11 2) ∧
    decode ⟨.hcmd, 0xC03#24⟩ = .ok (.reserved12 3) ∧ decode ⟨.hcmd, 0xD04#24⟩ = .ok (.reserved13 4) ∧
    decode ⟨.hcmd, 0xE05#24⟩ = .ok (.reserved14 5) ∧ decode ⟨.hcmd, 0xFFF#24⟩ = .ok (.reserved15 0xFF) := by
  decide

/-- V-CH: `US`, `!`, `A`, `Z`, `^`, `_`, `~`, 0xA0, and the first of 80..87 and of 92..93. -/
theorem test_decode_characters :
    decode ⟨.char, 0b00011111#24⟩ = .ok (.chLow 31) ∧ decode ⟨.char, 0b00100001#24⟩ = .ok (.chA 1) ∧
    decode ⟨.char, 0b01000001#24⟩ = .ok (.chB40 1) ∧ decode ⟨.char, 0b01010000#24⟩ = .ok (.chB50 0) ∧
    decode ⟨.char, 0b01011010#24⟩ = .ok (.chB58 2) ∧ decode ⟨.char, 0b01011100#24⟩ = .ok (.chB5C 0) ∧
    decode ⟨.char, 0b01011110#24⟩ = .ok .chB5E ∧ decode ⟨.char, 0b01011111#24⟩ = .ok .chUnl ∧
    decode ⟨.char, 0b01111110#24⟩ = .ok (.chHi1 30) ∧ decode ⟨.char, 0b10100000#24⟩ = .ok (.chHi2 32) := by
  decide

/-- The field check of V-PK1, and R89. -/
theorem test_decode_codewords :
    decode ⟨.cw0, 0b10010011#24⟩ = .ok (.cw0 0b100100 0b11) ∧
    decode ⟨.cw1, 0b01100110#24⟩ = .ok (.cw1 0b0110 0b0110) ∧
    decode ⟨.cw2, 0b10000001#24⟩ = .ok (.cw2 0b10 0b000001) ∧
    decode ⟨.unlatchCw, 0b01111100#24⟩ = .ok .unlatchcw := by decide

/-- S1 and S2, V-PK3 and V-PK4: the codewords of a form as one string, first codeword on top. -/
theorem test_decode_packing_forms :
    decode ⟨.pack4, 0x936681#24⟩ = .ok (.pack4 36 54 26 1) ∧
    decode ⟨.pack3, 0x936680#24⟩ = .ok (.pack3 36 54 26) ∧
    decode ⟨.pack2, 0x9360#24⟩ = .ok (.pack2 36 54) ∧
    decode ⟨.pack1, 0x90#24⟩ = .ok (.pack1 36) := by decide

/-- R92: a zero operand field that is not zero; a mode on four bits; R58: a zero fill that is not zero. -/
theorem test_decode_rejects :
    decode ⟨.hcmd, 0x101#24⟩ = .error (.operandBits 1) ∧ decode ⟨.hcmd, 0x504#24⟩ = .error (.operandBits 5) ∧
    decode ⟨.hcmd, 0x808#24⟩ = .error (.operandBits 8) ∧ decode ⟨.pack2, 0x9361#24⟩ = .error .fillNotZero ∧
    decode ⟨.unlatchCw, 0x7D#24⟩ = .error .notUnlatch ∧ decode ⟨.pin, 0#24⟩ = .error .startPinLow ∧
    decode ⟨.phase, 16#24⟩ = .error .tooWide ∧ decode ⟨.unknown, 0#24⟩ = .error .noSuchChannel := by decide

/-- Rows of the table, read by their bits alone. -/
theorem test_table_words :
    decodeTableWord 8 13 = some .eMode ∧ decodeTableWord 8 0x41 = some (.chB40 1) ∧
    decodeTableWord 8 0x7C = some .unlatchcw ∧ decodeTableWord 16 0x67C = some (.emit 0x7C) ∧
    decodeTableWord 24 0x936681 = some (.pack4 36 54 26 1) ∧ decodeTableWord 1 1 = some .start := by decide

/-- A placed word is what the next step runs: `E_MORE` from the reset state goes to `E_SPC0` (V-E26). -/
theorem test_withFetchWord_phase :
    nextIs (step (State.reset.withFetchWord 8 8)) (fun t => t.ph == .eSpc0) = true := by decide

theorem test_withFetchWord_command :
    nextIs (step (State.reset.withFetchWord 16 0x67C)) (fun t => t.host.out == [0x7C] && t.ph == .idle)
      = true := by decide

/-! ### Start, the loop, halt -/

/-- V-L1. -/
theorem test_idle_waits :
    nextIs (step (pinned State.reset false false true)) (fun t => t.ph == .idle && t.status == 0) = true := by
  decide

/-- V-L2, and the `STATUS` of R140. -/
theorem test_idle_starts :
    nextIs (step (pinned State.reset false true true))
      (fun t => t.ph == .lTake && t.status == 0b1000_0000#8) = true := by decide

/-- V-L3. -/
theorem test_start_from_halt :
    nextIs (exec .start { State.reset with ph := .halt, st := .noSpace })
      (fun t => t.ph == .lTake && t.st == .none) = true := by decide

/-- V-L17. -/
theorem test_halt_stays :
    nextIs (exec .halt { State.reset with ph := .halt, st := .ok, unl := true })
      (fun t => t.ph == .halt && t.status == 0b0101_1000#8) = true := by decide

/-- V-L4: `start` in a run is ignored. -/
theorem test_lTake_ignores_start :
    nextIs (step (pinned (at_ .lTake 2 abcd [0x41, 0x42, 0x43] 2 none) false true true))
      (fun t => t.ph == .lTake && t.cnt == 3 && t.buf.c2 == 0x43 && t.host.pos == 3) = true := by decide

/-- V-L6. -/
theorem test_lTake_fills_the_group :
    nextIs (exec .lTake (at_ .lTake 3 ⟨0x41, 0x42, 0x43, 0⟩ [0x41, 0x42, 0x43, 0x44] 3 none))
      (fun t => t.ph == .lFlush && t.cnt == 4 && t.buf == abcd && t.eidx == 0) = true := by decide

/-- V-L12 and V-L14. -/
theorem test_lFlush_first :
    nextIs (exec .lFlush (at_ .lFlush 4 abcd [] 0 none))
      (fun t => t.ph == .lFlush && t.eidx == 1 && t.host.out == [0x04]) = true := by decide

theorem test_lFlush_last :
    nextIs (exec .lFlush { at_ .lFlush 4 abcd [] 0 none with eidx := 2 })
      (fun t => t.ph == .lSwq && t.cnt == 0 && t.host.out == [0xC4]) = true := by decide

/-- V-L15 and V-L16. -/
theorem test_lSwq_no :
    nextIs (exec .lSwq (forcing (at_ .lSwq 0 stale [] 0 none) (rsp false 0))) (fun t => t.ph == .lTake)
      = true := by decide

theorem test_lSwq_yes :
    nextIs (exec .lSwq (forcing (at_ .lSwq 0 stale [] 0 none) (rsp true 0))) (fun t => t.ph == .eCnt)
      = true := by decide

/-! ### End-of-segment handling -/

/-- V-E19 and V-E24. -/
theorem test_eCnt_checks :
    nextIs (exec .eCnt (forcing (at_ .eCnt 2 abcd [] 0 none) (rsp false 0))) (fun t => t.ph == .ePeek)
      = true := by decide

theorem test_eCnt_declines :
    nextIs (exec .eCnt (forcing (at_ .eCnt 3 abcd [] 0 none) (rsp false 2))) (fun t => t.ph == .eSpck)
      = true := by decide

/-- V-E18: previewed bytes are not range-checked. -/
theorem test_ePeek_counts_high_bytes :
    nextIs (exec .ePeek (at_ .ePeek 1 ⟨0x41, 0, 0, 0⟩ [0x41, 0x80] 1 none))
      (fun t => t.ph == .eSpck && t.asz == 3) = true := by decide

/-- V-E14: a pair of digits. -/
theorem test_ePeek_pairs_digits :
    nextIs (exec .ePeek (at_ .ePeek 3 ⟨0x31, 0x32, 0x33, 0⟩ [0x31, 0x32, 0x33] 3 none))
      (fun t => t.ph == .eSpc1 && t.asz == 2) = true := by decide

/-- V-E3 and V-E5. -/
theorem test_eSpc1_fires :
    nextIs (exec .eSpc1 (forcing { at_ .eSpc1 1 abcd [] 0 none with asz := 1 } (rsp true 1)))
      (fun t => t.ph == .ePb) = true := by decide

theorem test_eSpc1_declines :
    nextIs (exec .eSpc1 (forcing { at_ .eSpc1 2 abcd [] 0 none with asz := 2 } (rsp true 1)))
      (fun t => t.ph == .eSpck) = true := by decide

/-- V-E36. -/
theorem test_ePb_gives_back :
    nextIs (exec .ePb (at_ .ePb 2 abcd [0x41, 0x42] 2 none))
      (fun t => t.ph == .eMode && t.cnt == 0 && t.cheap && t.host.pos == 0) = true := by decide

/-- V-E25. -/
theorem test_eMore_yes :
    nextIs (exec .eMore (at_ .eMore 0 stale [0x41] 0 none)) (fun t => t.ph == .eUnls) = true := by decide

/-- V-E28 and V-E27. -/
theorem test_eSpc0_room :
    nextIs (exec .eSpc0 (at_ .eSpc0 0 stale [] 0 (some 5))) (fun t => t.ph == .eUnlp) = true := by decide

theorem test_eSpc0_full :
    nextIs (exec .eSpc0 (at_ .eSpc0 0 stale [] 0 (some 0)))
      (fun t => t.ph == .halt && t.st == .ok && !t.msw) = true := by decide

/-- V-E30 and V-E31. -/
theorem test_eUnlp :
    nextIs (exec .eUnlp (at_ .eUnlp 0 stale [] 0 none))
      (fun t => t.ph == .eMode && t.unl && t.host.out == [0x7C]) = true := by decide

theorem test_eUnls :
    nextIs (exec .eUnls (at_ .eUnls 0 stale [] 0 none))
      (fun t => t.status == 0b0101_1000#8 && t.host.out == [0x7C] && t.host.mode == .edifact) = true := by
  decide

/-- V-E12 and V-E13. -/
theorem test_eSpck_three_pending :
    nextIs (exec .eSpck (at_ .eSpck 3 ⟨0x41, 0x42, 0x43, 0⟩ [] 0 (some 3)))
      (fun t => t.ph == .eMode && t.cnt == 4 && t.buf.c3 == 0x1F && t.unl) = true := by decide

theorem test_eSpck_no_answer :
    nextIs (exec .eSpck (at_ .eSpck 3 abcd [] 0 none))
      (fun t => t.status == 0b0111_0000#8 && t.cnt == 0) = true := by decide

/-- V-E38 and V-E39. -/
theorem test_eMode_ends :
    nextIs (exec .eMode (at_ .eMode 0 stale [] 0 none))
      (fun t => t.ph == .halt && t.st == .ok && t.msw && t.host.mode == .default) = true := by decide

theorem test_eMode_flushes :
    nextIs (exec .eMode { at_ .eMode 4 abcd [] 0 none with eidx := 2 })
      (fun t => t.ph == .eFlush && t.cnt == 4 && t.eidx == 0) = true := by decide

/-- V-E42 and V-E41. -/
theorem test_eFlush_last :
    nextIs (exec .eFlush { at_ .eFlush 2 ⟨0x41, 0x1F, 0x7F, 0x7F⟩ [] 0 none with eidx := 1 })
      (fun t => t.ph == .halt && t.st == .ok && t.cnt == 0 && t.host.out == [0xF0]) = true := by decide

theorem test_eFlush_first :
    nextIs (exec .eFlush (at_ .eFlush 2 ⟨0x41, 0x1F, 0x7F, 0x7F⟩ [] 0 none))
      (fun t => t.ph == .eFlush && t.eidx == 1 && t.host.out == [0x05]) = true := by decide

/-! ### Host commands -/

theorem test_nop : nextIs (exec .nop State.reset) (fun t => t == State.reset) = true := by decide

/-- V-H1. -/
theorem test_take :
    nextIs (exec .take (afterAbcd [0x41, 0x42, 0x43, 0x44, 0x45, 0x46] 4 (some 7)))
      (fun t => t.hrsp.char? == some 0x45 && t.host.pos == 5) = true := by decide

/-- V-H3. -/
theorem test_count :
    nextIs (exec .count (afterAbcd [0x41, 0x42, 0x43, 0x44, 0x45, 0x46] 4 (some 7)))
      (fun t => t.hrsp.int == 2 && t.host.pos == 4) = true := by decide

/-- V-H4. -/
theorem test_peek :
    nextIs (exec .peek (afterAbcd [0x41, 0x42, 0x43, 0x44, 0x45, 0x46] 4 (some 7)))
      (fun t => t.hrsp.len == 2 && t.hrsp.preview 2 == [0x45, 0x46] && t.host.pos == 4) = true := by decide

/-- V-H7. -/
theorem test_more :
    nextIs (exec .more (afterAbcd [0x41, 0x42, 0x43, 0x44, 0x45, 0x46] 6 (some 7))) (fun t => !t.hrsp.flag)
      = true := by decide

/-- V-H8. -/
theorem test_pushback :
    nextIs (exec (.pushback 2) (afterAbcd [0x41, 0x42, 0x43, 0x44, 0x45, 0x46] 6 (some 7)))
      (fun t => t.host.pos == 4) = true := by decide

/-- V-H9. -/
theorem test_emit :
    nextIs (exec (.emit 0x7C) (afterAbcd [] 0 (some 7))) (fun t => t.host.out == [0x04, 0x20, 0xC4, 0x7C])
      = true := by decide

/-- V-H12 and V-H13. -/
theorem test_space :
    nextIs (exec (.space 3) (afterAbcd [] 0 (some 7))) (fun t => t.hrsp.space? == some 1) = true := by decide

theorem test_space_does_not_fit :
    nextIs (exec (.space 3) { State.reset with
        host := ⟨[], 0, [0x04, 0x20, 0xC4, 0x14, 0x61], .edifact, .fixed (some 7), [], some false⟩ })
      (fun t => t.hrsp.space? == none) = true := by decide

/-- V-H15. -/
theorem test_setmode :
    nextIs (exec (.setmode 0) (afterAbcd [] 0 none)) (fun t => t.host.mode == .default) = true := by decide

/-- V-H16. -/
theorem test_switchq :
    nextIs (exec .switchq (afterAbcd [] 0 none)) (fun t => t.hrsp.flag && t.host.sw == [false]) = true := by
  decide

/-! ### Character classes -/

/-- V-CH: the verdict on the first and last character of each class. -/
theorem test_illegal_classes :
    nextIs (exec .chUnl (at_ .lTake 3 abcd [] 0 none)) (fun t => t.status == 0b0110_0000#8 && t.cnt == 0) ∧
    nextIs (exec (.chLow 31) (at_ .lTake 3 abcd [] 0 none)) (fun t => t.st == .illegal) ∧
    nextIs (exec (.chHi1 0) (at_ .lTake 3 abcd [] 0 none)) (fun t => t.st == .illegal) ∧
    nextIs (exec (.chHi2 0x20) (at_ .lTake 3 abcd [] 0 none)) (fun t => t.st == .illegal) := by decide

theorem test_encodable_classes :
    nextIs (exec (.chA 0) (at_ .lTake 0 stale [] 0 none)) (fun t => t.buf.c0 == 0x20 && t.cnt == 1) ∧
    nextIs (exec (.chB40 0) (at_ .lTake 0 stale [] 0 none)) (fun t => t.buf.c0 == 0x40) ∧
    nextIs (exec (.chB50 7) (at_ .lTake 0 stale [] 0 none)) (fun t => t.buf.c0 == 0x57) ∧
    nextIs (exec (.chB58 2) (at_ .lTake 0 stale [] 0 none)) (fun t => t.buf.c0 == 0x5A) ∧
    nextIs (exec (.chB5C 1) (at_ .lTake 0 stale [] 0 none)) (fun t => t.buf.c0 == 0x5D) ∧
    nextIs (exec .chB5E (at_ .lTake 0 stale [] 0 none)) (fun t => t.buf.c0 == 0x5E) := by decide

/-- V-CH, last column. -/
theorem test_values :
    valueOf 0x20 = 32 ∧ valueOf 0x3F = 63 ∧ valueOf 0x40 = 0 ∧ valueOf 0x5A = 26 ∧ valueOf 0x5E = 30 := by
  decide

/-! ### Codewords and packing forms -/

theorem test_cw0 : nextIs (exec (.cw0 0b100100 0b11) State.reset) (fun t => t.host.out == [0x93]) = true := by
  decide

theorem test_cw1 : nextIs (exec (.cw1 0b0110 0b0110) State.reset) (fun t => t.host.out == [0x66]) = true := by
  decide

theorem test_cw2 : nextIs (exec (.cw2 0b10 0b000001) State.reset) (fun t => t.host.out == [0x81]) = true := by
  decide

theorem test_unlatchcw : nextIs (exec .unlatchcw State.reset) (fun t => t.host.out == [0x7C]) = true := by
  decide

/-- A packing form presented in `IDLE`. -/
def presenting (i : Instr) : State := { State.reset with presented := [encode i] }

/-- R11, R98: one `EMIT` a step, the next one is presented. -/
theorem test_pack4_first_step :
    nextIs (exec (.pack4 36 54 26 1) State.reset)
      (fun t => t.host.out == [0x93] && t.presented == [⟨.hcmd, 0x666#24⟩, ⟨.hcmd, 0x681#24⟩]) = true := by
  decide

/-- V-PK1. -/
theorem test_pack4 :
    nextIs (Host.Core.run core 3 (presenting (.pack4 36 54 26 1)))
      (fun t => t.host.out == [0x93, 0x66, 0x81] && t.presented == []) = true := by decide

/-- V-PK2, V-PK3 and V-PK8. -/
theorem test_pack3 :
    nextIs (Host.Core.run core 3 (presenting (.pack3 36 54 26)))
      (fun t => t.host.out == [0x93, 0x66, 0x80] && t.presented == []) = true := by decide

theorem test_pack2 :
    nextIs (Host.Core.run core 2 (presenting (.pack2 36 54)))
      (fun t => t.host.out == [0x93, 0x60] && t.presented == []) = true := by decide

theorem test_pack1 :
    nextIs (exec (.pack1 63) State.reset) (fun t => t.host.out == [0xFC] && t.presented == []) = true := by
  decide

/-- V-PK16 and V-PK22. -/
theorem test_upper_bits_ignored :
    (List.range 3).map (fun i => Buf.cw ⟨0xC1, 0x82, 0x43, 0xFF⟩ i 4) = [0x04, 0x20, 0xFF] := by decide

theorem test_unpack : unpack 0x14 0x61 0xDF = [5, 6, 7, 31] := by decide

/-! ### Reset and the port -/

/-- V-R2 and V-R3. -/
theorem test_rst_abandons_the_run :
    nextIs (step (pinned (at_ .lTake 2 abcd [0x41, 0x42] 2 none) true true true))
      (fun t => t.ph == .idle && t.cnt == 0 && t.status == 0 && !t.cmdValid && t.host.pos == 2) = true := by
  decide

/-- V-HC: `SPACE(2)` at `E_SPCK` with two pending. -/
theorem test_hcmd : (at_ .eSpck 2 abcd [] 0 none).hcmd = 0x702 := by decide

/-- V-ST, row 4. -/
theorem test_status_view :
    { State.reset with ph := .eFlush, unl := true, msw := true : State }.status = 0b1000_1100#8 := by decide

/-! ### Witnesses: states and operands that meet the hypotheses of the statements -/

theorem witness_decodedWord : decode ⟨.hcmd, 0xFFF#24⟩ = .ok (.reserved15 0xFF) := by decide

/-- A presented word, a busy phase, `start` in `IDLE`, and `IDLE` with `start` at 0. -/
theorem witness_stepRuns :
    (∀ s ∈ [{ State.reset with presented := [⟨.hcmd, 0x100#24⟩] }, at_ .eFlush 4 abcd [] 0 none,
        pinned State.reset false true true, State.reset],
      s.nextSample.pins.rst = false ∧ s.sample.waiting = false) ∧
    decode { State.reset with presented := [⟨.hcmd, 0x100#24⟩] : State }.sample.fetch = .ok .take ∧
    decode (at_ .eFlush 4 abcd [] 0 none).sample.fetch = .ok .eFlush ∧
    decode (pinned State.reset false true true).sample.fetch = .ok .start ∧
    decode State.reset.sample.fetch = .ok .idle := by decide

theorem witness_unanswered :
    let s := pinned (at_ .eFlush 4 abcd [] 0 none) false true false
    s.presented = [] ∧ s.ph.busy = true ∧ s.nextSample.pins.rst = false ∧
      s.nextSample.pins.rspValid = false := by decide

theorem witness_rst : (pinned State.reset true true true).nextSample.pins.rst = true := by decide

/-- `start` at 0 and at 1. -/
theorem witness_start_pin :
    State.reset.pins.start = false ∧ State.reset.ph = .idle ∧
    { State.reset with pins := ⟨false, true, true⟩ : State }.pins.start = true ∧
    (at_ .halt 0 stale [] 0 none).ph = .halt ∧
    (at_ .eFlush 4 abcd [] 0 none).ph ≠ .idle ∧ (at_ .eFlush 4 abcd [] 0 none).ph ≠ .halt := by decide

/-- `CNT` at the ends of its range, with the host's own answers. -/
theorem witness_counts :
    (∀ c : BitVec 3, c = 0 ∨ c = 3 → (at_ .lTake c abcd [0x41, 0x42, 0x43] 3 none).cnt.toNat ≤ 3) ∧
    (at_ .ePeek 4 abcd [] 0 none).cnt.toNat ≤ 4 ∧
    (at_ .lTake 3 abcd [0x41] 0 none).forced = [] := by decide

/-- The first codeword of one, and the last of four. -/
theorem witness_lFlush :
    ∀ s ∈ [at_ .lFlush 1 abcd [] 0 none, { at_ .lFlush 4 abcd [] 0 none with eidx := 2 }],
      1 ≤ s.cnt.toNat ∧ s.cnt.toNat ≤ 4 ∧ s.eidx.toNat < min s.cnt.toNat 3 := by decide

theorem witness_threeLFlush :
    (at_ .lFlush 4 abcd [] 0 none).cnt = 4 ∧ (at_ .lFlush 4 abcd [] 0 none).eidx = 0 := by decide

/-- R164, R195: with fewer characters taken than pending, `E_PB` writes its registers and touches nothing
of the host but the cursor. -/
theorem test_ePb_runs_beyond_taken :
    nextIs (exec .ePb (at_ .ePb 3 abcd [0x41, 0x42, 0x43] 2 none))
      (fun t => t.ph == .eMode && t.cnt == 0 && t.cheap && t.host.out == []) = true := by decide

/-- All that was taken is given back, and less was taken than is given back. -/
theorem witness_ePb :
    let s := at_ .ePb 3 abcd [0x41, 0x42, 0x43] 3 none
    let u := at_ .ePb 3 abcd [0x41, 0x42, 0x43] 2 none
    s.cnt.toNat ≤ 3 ∧ s.cnt.toNat ≤ s.host.pos ∧ u.cnt.toNat ≤ 3 := by decide

/-- Each status. -/
theorem witness_status :
    State.reset.st = .none ∧ { State.reset with ph := .halt, st := .ok : State }.st = .ok ∧
    { State.reset with ph := .halt, st := .illegal : State }.st = .illegal ∧
    { State.reset with ph := .halt, st := .noSpace : State }.st = .noSpace := by decide

/-- One pending and the first codeword; four pending and the last. -/
theorem witness_eFlush :
    ∀ s ∈ [at_ .eFlush 1 abcd [] 0 none, { at_ .eFlush 4 abcd [] 0 none with eidx := 2 }],
      1 ≤ s.cnt.toNat ∧ s.cnt.toNat ≤ 4 ∧ s.eidx.toNat < min s.cnt.toNat 3 := by decide

theorem witness_outOfRange :
    3 < (at_ .lTake 4 abcd [] 0 none).cnt.toNat ∧ 4 < (at_ .ePeek 5 abcd [] 0 none).cnt.toNat ∧
    (at_ .lFlush 0 abcd [] 0 none).cnt = 0 ∧ encodable 0x41 = true ∧
    (let s := { at_ .eFlush 1 abcd [] 0 none with eidx := 1 }
     1 ≤ s.cnt.toNat ∧ s.cnt.toNat ≤ 4 ∧ min s.cnt.toNat 3 ≤ s.eidx.toNat) := by decide

/-- A cursor before the end and a cursor at the end, with the host's own answers. -/
theorem witness_cursor :
    let s := afterAbcd [0x41, 0x42] 1 none
    let t := afterAbcd [0x41, 0x42] 2 none
    s.forced = [] ∧ s.host.pos < s.host.inp.length ∧ t.forced = [] ∧ t.host.inp.length ≤ t.host.pos := by
  decide

theorem witness_pushback :
    (3 : BitVec 2).toNat ≤ (at_ .ePb 3 abcd [0x41, 0x42, 0x43] 3 none).host.pos ∧
    (at_ .ePb 3 abcd [0x41, 0x42, 0x43] 2 none).host.pos < (3 : BitVec 2).toNat := by decide

theorem witness_space :
    let s := afterAbcd [] 0 none
    let t := afterAbcd [] 0 (some 6)
    s.forced = [] ∧ s.host.cap = .fixed none ∧ t.forced = [] ∧ t.host.cap = .fixed (some 6) := by decide

theorem witness_setmode : (7 : BitVec 3) ≠ 0 := by decide

theorem witness_switchq :
    let s := afterAbcd [] 0 none
    let t := at_ .lSwq 0 stale [] 0 none
    s.forced = [] ∧ s.host.sw = true :: [false] ∧ t.forced = [] ∧ t.host.sw = [] ∧
      t.host.swRest = some false := by decide

theorem witness_characterClass :
    let s := at_ .lTake 3 abcd [0x5E] 0 none
    s.cnt.toNat ≤ 3 ∧ s.hostTake.hrsp.char? = some 0x5E := by decide

theorem witness_values :
    encodable 32 = true ∧ encodable 94 = true ∧ (30 : Value) ≠ 31 ∧ (32 : Value) ≠ 31 := by decide

theorem witness_packing : 2 < 3 ∧ 1 ≤ 4 ∧ 4 ≤ 4 := by decide

/-- The packing form of the buffer, presented, with no input scheduled. -/
theorem witness_packForm :
    let s := { presenting (.pack4 1 2 3 4) with buf := abcd }
    s.inputs = [] ∧ s.presented = encode (.pack4 1 2 3 4) :: [] ∧
      s.presented = encode (.pack4 (s.buf.val 0 4) (s.buf.val 1 4) (s.buf.val 2 4) (s.buf.val 3 4)) :: [] := by
  decide

theorem witness_upperBits :
    ∀ j, j < 4 → (Buf.get ⟨0xC1, 0x82, 0x43, 0xFF⟩ j).extractLsb' 0 6 =
      (Buf.get ⟨0x41, 0x42, 0x03, 0x3F⟩ j).extractLsb' 0 6 := by decide

/-- Four pending in `E_FLUSH` after the marker: a state inside both invariants, the host answering. -/
def finalGroupState : State :=
  { at_ .eFlush 4 ⟨0x41, 0x42, 0x43, 0x1F⟩ [0x41, 0x42, 0x43] 3 (some 3) with unl := true, msw := true }

/-- Three pending at `E_CNT`, all the input taken. -/
def segmentEnd : State := at_ .eCnt 3 abcd [0x41, 0x42, 0x43] 3 (some 3)

theorem witness_controlInv : finalGroupState.ControlInv ∧ segmentEnd.ControlInv := by
  refine ⟨⟨rfl, ?_, ⟨by decide, by decide, by decide⟩, ?_⟩, rfl, ?_, ⟨by decide, by decide, by decide⟩, ?_⟩
  · exact ⟨by decide, by decide⟩
  · exact ⟨rfl, rfl, rfl, by decide, by decide⟩
  · exact (by decide : (3 : BitVec 3).toNat ≤ 3)
  · exact ⟨rfl, rfl, rfl, rfl⟩

theorem witness_hostInv : finalGroupState.HostInv ∧ segmentEnd.HostInv := by
  refine ⟨⟨rfl, by decide, ⟨by decide, by decide⟩, nofun⟩, rfl, by decide, ⟨fun _ => ⟨by decide, by decide, by decide⟩, by decide⟩, nofun⟩

/-- The step of `finalGroupState` answers a next state, with a command answered and no reset. -/
theorem witness_steps :
    nextIs (step finalGroupState) (fun t => t.ph == .eFlush) = true ∧
    finalGroupState.presented = [] ∧ finalGroupState.nextSample.pins.rst = false ∧
    finalGroupState.sample.waiting = false ∧ finalGroupState.ph.busy = true ∧
    decodePhase finalGroupState.ph.code = .eFlush ∧
    nextIs (exec (decodePhase finalGroupState.ph.code) finalGroupState) (fun t => t.ph == .eFlush) = true := by
  decide

/-- Each flag is set by a step of a phase that sets it, and cleared by `START`; `HALT` is entered. -/
theorem witness_flags :
    nextIs (step (at_ .eUnlp 0 stale [] 0 none)) (fun t => t.unl) = true ∧
    nextIs (step (at_ .eMode 0 stale [] 0 none)) (fun t => t.msw && t.ph == .halt) = true ∧
    nextIs (step (at_ .ePb 0 stale [] 0 none)) (fun t => t.cheap) = true ∧
    nextIs (step (pinned { at_ .halt 0 stale [] 0 none with unl := true, msw := true, cheap := true }
        false true true)) (fun t => !t.unl && !t.msw && !t.cheap && t.st == .none) = true := by decide

/-- Both faults are reached: an illegal character, and a query answered `none`. -/
theorem witness_exceptions :
    nextIs (step (at_ .lTake 3 abcd [0x41, 0x42, 0x43, 0x5F] 3 none))
      (fun t => t.ph == .halt && t.st == .illegal) = true ∧
    nextIs (step (at_ .eSpck 3 abcd [0x41, 0x42, 0x43] 3 none)) (fun t => t.ph == .halt && t.st == .noSpace)
      = true := by decide

/-- The phases of each clause on the command word, `CNT` at the end of its range. -/
theorem witness_commandWord :
    (at_ .ePb 3 abcd [] 0 none).cnt.toNat ≤ 3 ∧ (at_ .eSpck 3 abcd [] 0 none).cnt.toNat ≤ 3 ∧
    (at_ .ePb 3 abcd [] 0 none).hcmd = 0x503 ∧ (at_ .eSpck 3 abcd [] 0 none).hcmd = 0x703 ∧
    (at_ .lTake 0 stale [] 0 none).hcmd = 0x100 ∧ State.reset.hcmd = 0 := by decide

/-- Two states that differ in stale cells, in `EIDX` and in `ASZ`. -/
theorem witness_stale :
    let s1 := at_ .lTake 1 ⟨0x41, 0, 0, 0⟩ [0x41, 0x42] 1 none
    let s2 := { at_ .lTake 1 ⟨0x41, 9, 9, 9⟩ [0x41, 0x42] 1 none with eidx := 2, asz := 3 }
    s1.presented = [] ∧ s1.agrees s2.toEngine ∧ s1.sameSurroundings s2 ∧
      nextIs (step s1) (fun t => t.cnt == 2) = true := by
  refine ⟨rfl, ⟨rfl, rfl, rfl, rfl, rfl, rfl, ?_, by decide, by decide⟩, ⟨⟨rfl, rfl, rfl, rfl⟩, rfl, rfl, rfl, rfl⟩, by decide⟩
  intro i hi
  have h1 : i < 1 := hi
  obtain rfl : i = 0 := by omega
  rfl

theorem witness_modeFlag :
    nextIs (step (at_ .eMode 0 stale [] 0 none)) (fun t => t.host.mode == .default) = true ∧
    nextIs (step ((at_ .eMode 0 stale [] 0 none).withMode .default)) (fun t => t.host.mode == .default) = true := by
  decide

/-- The end of a segment with three pending: the hypotheses on a run that ends, and row 7 of R173. -/
theorem witness_segmentEnd :
    segmentEnd.ph = .eCnt ∧ segmentEnd.inputs = [] ∧ segmentEnd.ph.busy = true ∧
    segmentEnd.segmentOutcome.1.out = [0x04, 0x20, 0xDF] ∧ segmentEnd.cnt ≠ 0 := by decide

/-- Row 7 of R173 run on the machine, and row 2: nothing pending, the input used up, room for one. -/
theorem witness_segmentEnd_run :
    nextIs (Host.Core.run core 7 segmentEnd)
      (fun t => t.ph == .halt && t.host.out == [0x04, 0x20, 0xDF]) = true := by decide

theorem witness_segmentEnd_empty :
    let s := at_ .eCnt 0 stale [0x41] 1 (some 1)
    s.cnt = 0 ∧ s.host.pos = s.host.inp.length ∧ s.inputs = [] ∧
      nextIs (Host.Core.run core 5 s) (fun t => t.ph == .halt && t.host.out == [0x7C]) = true := by decide

/-- Row 6 of R173 from the start: "A" in a symbol of one codeword, seven steps. -/
theorem witness_successfulRun :
    let s := at_ .lTake 0 stale [0x41] 0 (some 1)
    s.ph = .lTake ∧ s.cnt = 0 ∧ s.ControlInv ∧ s.HostInv ∧ s.inputs = [] ∧
      ∃ t, Host.Core.run core 7 s = .next t ∧ t.succeeded ∧ t.host.out = [0x04] := by
  refine ⟨rfl, rfl, ⟨rfl, ?_, ⟨by decide, by decide, by decide⟩, ⟨rfl, rfl, rfl, rfl⟩⟩,
    ⟨rfl, by decide, ⟨fun _ => ⟨by decide, by decide, by decide⟩, by decide⟩, nofun⟩, rfl, _, rfl,
    ⟨rfl, rfl⟩, rfl⟩
  exact (by decide : (0 : BitVec 3).toNat ≤ 3)

end Sys2Proof.Tests
end

section
/-! The scope of a step (`00_scope.md` R11): what sampling does to the host, which operation is fetched
when no word is presented, and the settling of O4. -/

namespace Sys2Proof.Machine

/-- During a run the host may not act on its own state (H2). -/
theorem State.sample_host_of_busy {s : State} (hb : s.ph.busy = true) : s.sample.host = s.host := by
  simp [State.sample, hb]

/-- With no presented word, what sampling fetches is `START` or the operation of `PH` (R25, R140). -/
theorem fetched_eq_of_presented_nil {s : State} {i : Instr} (hp : s.presented = [])
    (hd : decode s.sample.fetch = .ok i) :
    i = if s.nextSample.pins.start && !s.ph.busy then .start else decodePhase s.ph.code :=
  Except.ok.inj (hd.symm.trans (decode_fetch (s := s.sample) hp))

end Sys2Proof.Machine

namespace Sys2Proof.Proofs

open Sys2Proof.Machine

/-- Settles O4: `step_run` gives the step, the rules of sampling its frame, and the clauses on `i` are
the branches of `fetched_eq_of_presented_nil`. -/
theorem stepRunsTheFetchedOperation : Obligations.StepRunsTheFetchedOperation := by
  intro s i hr hw hd _
  refine ⟨step_run hr hw hd, rfl, rfl, rfl, rfl, State.sample_host_of_busy, ?_, ?_, ?_⟩
  · intro hp hb
    simpa [hb] using fetched_eq_of_presented_nil hp hd
  · intro hp hb hs
    simpa [hb, hs] using fetched_eq_of_presented_nil hp hd
  · intro hp hs
    simpa [hs] using fetched_eq_of_presented_nil hp hd

end Sys2Proof.Proofs
end

section
/-! The operation of a phase in two halves (R11): the host serves the command of the phase, then
the engine is updated from the response word. `Phase.serve` and `Phase.update` are these halves,
and `exec_phase` says that the operation is their composition behind the operand check
`Phase.operandFault`. Rules of the whole machine follow from one lemma about each half. -/

namespace Sys2Proof.Machine

/-! ### The two halves -/

/-- The fault of a phase whose operands are out of range (R127, U16, log entry 15). -/
def Phase.operandFault (p : Phase) (e : Engine) : Option Fault :=
  match p with
  | .lTake | .ePb | .eSpck => if 3 < e.cnt.toNat then some .pendingCountOutOfRange else none
  | .ePeek => if 4 < e.cnt.toNat then some .pendingCountOutOfRange else none
  | .lFlush | .eFlush =>
    if e.cnt = 0 ∨ 4 < e.cnt.toNat then some .pendingCountOutOfRange
    else if ncw e.cnt.toNat ≤ e.eidx.toNat then some .codewordIndexOutOfRange
    else none
  | _ => none

/-- The host performs the command of the phase and its response word is delivered (R94, R190 to
R199). -/
def Phase.serve (p : Phase) (s : State) : State :=
  match p with
  | .idle | .halt => s
  | .lTake => s.hostTake
  | .lFlush | .eFlush => s.hostEmit (s.buf.cw s.eidx.toNat s.cnt.toNat)
  | .lSwq => s.hostSwitchq
  | .eCnt => s.hostCount
  | .ePeek => s.hostPeek
  | .eSpc1 => s.hostSpace s.asz.toNat
  | .ePb => s.hostPushback s.cnt.toNat
  | .eMore => s.hostMore
  | .eSpc0 => s.hostSpace 0
  | .eUnlp | .eUnls => s.hostEmit unlatchCodeword
  | .eSpck => s.hostSpace s.cnt.toNat
  | .eMode => s.hostSetMode

/-- After a codeword of the flush phase `p`: `last` if it was the last of its group, else the next
index (R144, R171). -/
def State.afterCodeword (p : Phase) (last : State → State) (s : State) : State :=
  if s.eidx.toNat = ncw s.cnt.toNat - 1 then last s else { s with eidx := s.eidx + 1, ph := p }

/-- What the operation of the phase does to the engine, once the response word is on the port. -/
def Phase.update (p : Phase) (s : State) : State :=
  match p with
  | .idle | .halt => s.goto p
  | .lTake =>
    match s.hrsp.char? with
    | none => s.goto .eCnt
    | some c => s.receiveChar c
  | .lFlush => s.afterCodeword .lFlush fun t => { t with cnt := 0, ph := .lSwq }
  | .lSwq => s.goto (if s.hrsp.flag then .eCnt else .lTake)
  | .eCnt =>
    s.goto (if 0 < s.cnt.toNat + s.hrsp.int ∧ s.cnt.toNat + s.hrsp.int ≤ 4 then .ePeek
      else decline s.cnt)
  | .ePeek =>
    let a := s.sizeFn.size (tail s.buf s.cnt s.hrsp)
    { s with asz := BitVec.ofNat 2 (min a 3), ph := if a ≤ 2 then .eSpc1 else decline s.cnt }
  | .eSpc1 =>
    match s.hrsp.space? with
    | none => s.takeException .noSpace
    | some n => s.goto (if n ≤ 2 ∧ s.asz.toNat ≤ n then .ePb else decline s.cnt)
  | .ePb => { s.setCheap with cnt := 0, ph := .eMode }
  | .eMore => s.goto (if s.hrsp.flag then .eUnls else .eSpc0)
  | .eSpc0 =>
    match s.hrsp.space? with
    | none => s.takeException .noSpace
    | some n => if 0 < n then s.goto .eUnlp else s.finishOk
  | .eUnlp => s.setUnl.goto .eMode
  | .eUnls => s.setUnl.finishOk
  | .eSpck =>
    match s.hrsp.space? with
    | none => s.takeException .noSpace
    | some n =>
      if 0 < n ∨ s.cnt = 3 then (s.push unlatchByte).setUnl.goto .eMode else s.enterFlush .eFlush
  | .eMode => if 0 < s.cnt.toNat then s.setMsw.enterFlush .eFlush else s.setMsw.finishOk
  | .eFlush => s.afterCodeword .eFlush State.finishOk

/-- The next state, unless the operand check found a fault. -/
def checked : Option Fault → State → Host.Outcome State Fault Refusal
  | some f, _ => .fault f
  | none, t => .next t

theorem checked_next {f : Option Fault} {t u : State} :
    checked f t = .next u ↔ f = none ∧ t = u := by
  cases f <;> simp [checked]

theorem withFreeCell_eq_checked (s t : State) :
    withFreeCell s t =
      checked (if 3 < s.cnt.toNat then some .pendingCountOutOfRange else none) t := by
  by_cases h : s.cnt.toNat ≤ 3
  · rw [withFreeCell, if_pos h, if_neg (by omega)]
    rfl
  · rw [withFreeCell, if_neg h, if_pos (by omega)]
    rfl

theorem flushStep_eq_checked (p : Phase) (last : State → State) (s : State) :
    flushStep p last s =
      checked
        (if s.cnt = 0 ∨ 4 < s.cnt.toNat then some .pendingCountOutOfRange
          else if ncw s.cnt.toNat ≤ s.eidx.toNat then some .codewordIndexOutOfRange
          else none)
        ((s.hostEmit (s.buf.cw s.eidx.toNat s.cnt.toNat)).afterCodeword p last) := by
  unfold flushStep
  split
  · rfl
  · split <;> rfl

/-! ### The operation of a phase -/

/-- The operation of a busy phase, on any state: the operand check, the host's service, the update.
-/
theorem exec_phase {p : Phase} (hb : p.busy = true) (s : State) :
    exec (decodePhase p.code) s = checked (p.operandFault s.toEngine) (p.update (p.serve s)) := by
  cases p
  case idle | halt => simp [Phase.busy] at hb
  case lTake | eSpck => exact (withFreeCell_eq_checked ..).trans rfl
  case lFlush =>
    show execLFlush s = _
    exact flushStep_eq_checked _ _ s
  case eFlush => exact flushStep_eq_checked _ _ s
  case ePeek =>
    show execEPeek s = _
    unfold execEPeek Phase.operandFault
    split <;> rfl
  case ePb =>
    show execEPb s = _
    unfold execEPb Phase.operandFault
    split <;> rfl
  all_goals rfl

@[simp] theorem Phase.serve_toEngine (p : Phase) (s : State) :
    (p.serve s).toEngine = s.toEngine := by
  cases p <;> simp [Phase.serve]

/-- Serving a command leaves the pins, the schedule, the size function and the presented words
alone. -/
theorem Phase.sameOutside_serve (p : Phase) (s : State) : s.sameOutside (p.serve s) := by
  cases p <;> simp [Phase.serve, State.sameOutside]

/-! ### A step of the sequencer -/

/-- Outside a run, with the `start` pin 0, the operation of `PH` changes nothing (R141, R148). -/
theorem exec_resting {s : State} (hb : s.ph.busy = false) (hs : s.pins.start = false) :
    exec (decodePhase s.ph.code) s = .next s := by
  have hstay : (if s.pins.start then s.startRun else s.goto s.ph) = s := by
    rw [if_neg (by simp [hs])]
    rfl
  cases hph : s.ph <;> simp [hph, Phase.busy] at hb
  case idle | halt => exact congrArg Host.Outcome.next (hph ▸ hstay)

/-- With no presented word a step is a reset, a wait, the step of the busy phase, a start, or
nothing (R90, R140, R141, R148, R240). -/
theorem step_of_presented_nil {s : State} (hp : s.presented = []) :
    step s =
      if s.nextSample.pins.rst then .next s.sample.resetEngine
      else if s.ph.busy then
        if s.nextSample.pins.rspValid then
          checked (s.ph.operandFault s.toEngine) (s.ph.update (s.ph.serve s.sample))
        else .next s.sample
      else if s.nextSample.pins.start then .next s.sample.startRun
      else .next s.sample := by
  have hfetched : s.sample.fetched = s.sample := by
    simp [State.fetched, State.sample, hp]
  by_cases hr : s.nextSample.pins.rst = true
  · simp [step, hr]
  rw [if_neg hr]
  rw [Bool.not_eq_true] at hr
  cases hb : s.ph.busy
  · have hw : s.sample.waiting = false := by simp [State.waiting, Engine.cmdValid, hb]
    rw [step_run hr hw (decode_fetch (s := s.sample) hp), hfetched]
    cases hs : s.nextSample.pins.start
    · simpa [hs] using exec_resting hb (s := s.sample) hs
    · simp [hs, hb, exec, execStart]
  · cases hv : s.nextSample.pins.rspValid
    · have hw : s.sample.waiting = true := by simp [State.waiting, Engine.cmdValid, hb, hp, hv]
      simp [step, hr, hw]
    · have hw : s.sample.waiting = false := by simp [State.waiting, hv]
      rw [step_run hr hw (decode_fetch (s := s.sample) hp), hfetched]
      simp only [State.sample_toEngine, hb]
      simpa using exec_phase hb s.sample

/-- Every next state of a step with no presented word: the reset state, the sampled state (a wait,
or no run on and none started), a started run, or the update of the phase. -/
theorem step_next_cases {s t : State} (hp : s.presented = []) (h : step s = .next t) :
    (s.nextSample.pins.rst = true ∧ t = s.sample.resetEngine) ∨
    t = s.sample ∨
    (s.ph.busy = false ∧ t = s.sample.startRun) ∨
    (s.ph.busy = true ∧ t = s.ph.update (s.ph.serve s.sample)) := by
  rw [step_of_presented_nil hp] at h
  split_ifs at h with hr hb hv hs
  · exact .inl ⟨hr, by simpa using h.symm⟩
  · exact .inr (.inr (.inr ⟨hb, (checked_next.mp h).2.symm⟩))
  · exact .inr (.inl (by simpa using h.symm))
  · exact .inr (.inr (.inl ⟨by simpa using hb, by simpa using h.symm⟩))
  · exact .inr (.inl (by simpa using h.symm))

end Sys2Proof.Machine
end

section
/-! What the update of a phase can do to the engine, said once: `Phase.Updated` lists the outcomes
with their conditions, and `Phase.updated` says that the list is complete. -/

namespace Sys2Proof.Machine

/-- The outcomes of the update of a phase, each with its condition on the registers and the
response word (R142 to R145, R161 to R171). -/
inductive Phase.Updated (s : State) : Phase → State → Prop
  | resting {p : Phase} (hp : p.busy = false) : Updated s p (s.goto p)
  | inputEnd (hr : s.hrsp.char? = none) : Updated s .lTake (s.goto .eCnt)
  | illegal {c : Byte} (hr : s.hrsp.char? = some c) (hc : encodable c = false) :
    Updated s .lTake (s.takeException .illegalChar)
  | accepted {c : Byte} (hr : s.hrsp.char? = some c) (hc : encodable c = true)
      (hn : s.cnt + 1 ≠ 4) :
    Updated s .lTake ((s.push c).goto .lTake)
  | fourth {c : Byte} (hr : s.hrsp.char? = some c) (hc : encodable c = true)
      (hn : s.cnt + 1 = 4) :
    Updated s .lTake ((s.push c).enterFlush .lFlush)
  | nextCodeword {p : Phase} (hp : p = .lFlush ∨ p = .eFlush)
      (hi : s.eidx.toNat ≠ ncw s.cnt.toNat - 1) :
    Updated s p { s with eidx := s.eidx + 1, ph := p }
  | groupDone (hi : s.eidx.toNat = ncw s.cnt.toNat - 1) :
    Updated s .lFlush { s with cnt := 0, ph := .lSwq }
  | lastGroupDone (hi : s.eidx.toNat = ncw s.cnt.toNat - 1) : Updated s .eFlush s.finishOk
  | switch (hr : s.hrsp.flag = true) : Updated s .lSwq (s.goto .eCnt)
  | stay (hr : s.hrsp.flag = false) : Updated s .lSwq (s.goto .lTake)
  | fewLeft (hr : 0 < s.cnt.toNat + s.hrsp.int ∧ s.cnt.toNat + s.hrsp.int ≤ 4) :
    Updated s .eCnt (s.goto .ePeek)
  | notFewLeft (hr : ¬(0 < s.cnt.toNat + s.hrsp.int ∧ s.cnt.toNat + s.hrsp.int ≤ 4)) :
    Updated s .eCnt (s.goto (decline s.cnt))
  | shortTail {a : Nat} (ha : a = s.sizeFn.size (tail s.buf s.cnt s.hrsp)) (h2 : a ≤ 2) :
    Updated s .ePeek { s with asz := BitVec.ofNat 2 (min a 3), ph := .eSpc1 }
  | longTail {a : Nat} (ha : a = s.sizeFn.size (tail s.buf s.cnt s.hrsp)) (h2 : 2 < a) :
    Updated s .ePeek { s with asz := BitVec.ofNat 2 (min a 3), ph := decline s.cnt }
  | noSpace {p : Phase} (hp : p = .eSpc1 ∨ p = .eSpc0 ∨ p = .eSpck) (hr : s.hrsp.space? = none) :
    Updated s p (s.takeException .noSpace)
  | tailFits {n : Nat} (hr : s.hrsp.space? = some n) (hn : n ≤ 2 ∧ s.asz.toNat ≤ n) :
    Updated s .eSpc1 (s.goto .ePb)
  | tailDeclined {n : Nat} (hr : s.hrsp.space? = some n) (hn : ¬(n ≤ 2 ∧ s.asz.toNat ≤ n)) :
    Updated s .eSpc1 (s.goto (decline s.cnt))
  | pushedBack : Updated s .ePb { s.setCheap with cnt := 0, ph := .eMode }
  | more (hr : s.hrsp.flag = true) : Updated s .eMore (s.goto .eUnls)
  | noMore (hr : s.hrsp.flag = false) : Updated s .eMore (s.goto .eSpc0)
  | room {n : Nat} (hr : s.hrsp.space? = some n) (hn : 0 < n) : Updated s .eSpc0 (s.goto .eUnlp)
  | full (hr : s.hrsp.space? = some 0) : Updated s .eSpc0 s.finishOk
  | unlatchPadding : Updated s .eUnlp (s.setUnl.goto .eMode)
  | unlatchSwitch : Updated s .eUnls s.setUnl.finishOk
  | marked {n : Nat} (hr : s.hrsp.space? = some n) (hn : 0 < n ∨ s.cnt = 3) :
    Updated s .eSpck ((s.push unlatchByte).setUnl.goto .eMode)
  | unmarked (hr : s.hrsp.space? = some 0) (hn : s.cnt ≠ 3) :
    Updated s .eSpck (s.enterFlush .eFlush)
  | modeThenFlush (hn : 0 < s.cnt.toNat) : Updated s .eMode (s.setMsw.enterFlush .eFlush)
  | modeThenHalt (hn : s.cnt = 0) : Updated s .eMode s.setMsw.finishOk

/-- The update of a phase is one of the outcomes listed. -/
theorem Phase.updated (p : Phase) (s : State) : p.Updated s (p.update s) := by
  cases p
  case idle | halt => exact .resting rfl
  case lTake =>
    simp only [Phase.update]
    cases hr : s.hrsp.char? with
    | none => exact .inputEnd hr
    | some c =>
      simp only [State.receiveChar, State.acceptChar]
      split_ifs with hc hn
      · exact .fourth hr hc hn
      · exact .accepted hr hc hn
      · exact .illegal hr (by simpa using hc)
  case lFlush =>
    simp only [Phase.update, State.afterCodeword]
    split_ifs with hi
    · exact .groupDone hi
    · exact .nextCodeword (.inl rfl) hi
  case eFlush =>
    simp only [Phase.update, State.afterCodeword]
    split_ifs with hi
    · exact .lastGroupDone hi
    · exact .nextCodeword (.inr rfl) hi
  case lSwq =>
    simp only [Phase.update]
    split_ifs with hr
    · exact .switch hr
    · exact .stay (by simpa using hr)
  case eCnt =>
    simp only [Phase.update]
    split_ifs with hr
    · exact .fewLeft hr
    · exact .notFewLeft hr
  case ePeek =>
    simp only [Phase.update]
    split_ifs with ha
    · exact .shortTail rfl ha
    · exact .longTail rfl (by omega)
  case eSpc1 =>
    simp only [Phase.update]
    cases hr : s.hrsp.space? with
    | none => exact .noSpace (.inl rfl) hr
    | some n =>
      simp only
      split_ifs with hn
      · exact .tailFits hr hn
      · exact .tailDeclined hr hn
  case ePb => exact .pushedBack
  case eMore =>
    simp only [Phase.update]
    split_ifs with hr
    · exact .more hr
    · exact .noMore (by simpa using hr)
  case eSpc0 =>
    simp only [Phase.update]
    cases hr : s.hrsp.space? with
    | none => exact .noSpace (.inr (.inl rfl)) hr
    | some n =>
      cases n with
      | zero => exact .full hr
      | succ n => exact .room hr n.succ_pos
  case eUnlp => exact .unlatchPadding
  case eUnls => exact .unlatchSwitch
  case eSpck =>
    simp only [Phase.update]
    cases hr : s.hrsp.space? with
    | none => exact .noSpace (.inr (.inr rfl)) hr
    | some n =>
      simp only
      split_ifs with hn
      · exact .marked hr hn
      · obtain ⟨hz, h3⟩ := not_or.mp hn
        obtain rfl : n = 0 := by omega
        exact .unmarked hr h3
  case eMode =>
    simp only [Phase.update]
    split_ifs with hn
    · exact .modeThenFlush hn
    · exact .modeThenHalt (by bv_omega)

/-- An update writes the engine alone. -/
theorem Phase.Updated.sameSurroundings {p : Phase} {s t : State} (hu : p.Updated s t) :
    s.sameSurroundings t := by
  cases hu <;> exact ⟨⟨rfl, rfl, rfl, rfl⟩, rfl, rfl, rfl, rfl⟩

end Sys2Proof.Machine
end

section
/-! The invariant of the engine (R22, R23, R26, R29 to R32, R37, R38), and the settling of O45:
each outcome of an update keeps the range of `CNT`, the ranges of `EIDX` and `ASZ`, and the status
and flags of the phase. -/

namespace Sys2Proof.Machine

theorem decline_eq (n : BitVec 3) :
    decline n = .eMore ∧ n = 0 ∨ decline n = .eSpck ∧ 0 < n.toNat := by
  unfold decline
  split
  · exact .inl ⟨rfl, ‹_›⟩
  · exact .inr ⟨rfl, by bv_omega⟩

theorem Engine.countOk_of_decline {e : Engine} (hp : e.ph = decline e.cnt) (h : e.cnt.toNat ≤ 3) :
    e.countOk := by
  rcases decline_eq e.cnt with ⟨hd, hn⟩ | ⟨hd, hn⟩ <;> simp only [Engine.countOk, hp, hd]
  · exact hn
  · exact ⟨hn, h⟩

/-- `CNT` stays in the range of the phase (R23, R37, R146, R169 to R171). -/
theorem Phase.Updated.countOk {p : Phase} {s t : State} (hu : p.Updated s t) (hp : s.ph = p)
    (h : s.countOk) : t.countOk := by
  cases hu <;> simp only [Engine.countOk, hp] at h
  case resting | inputEnd | fewLeft | shortTail | tailFits | more | noMore | room => exact h
  case illegal | groupDone | lastGroupDone | noSpace | full | unlatchSwitch | modeThenHalt => rfl
  case fourth hn => exact hn
  case accepted c hr hc hn =>
    show (s.cnt + 1).toNat ≤ 3
    bv_omega
  case nextCodeword hi hf =>
    rcases hf with rfl | rfl <;> exact h
  case switch | stay =>
    show s.cnt.toNat ≤ 3
    simp [h]
  case notFewLeft | longTail | tailDeclined => exact Engine.countOk_of_decline rfl h
  case pushedBack => exact .inl rfl
  case unlatchPadding => exact .inl h
  case marked =>
    refine .inr ?_
    show 2 ≤ (s.cnt + 1).toNat ∧ (s.cnt + 1).toNat ≤ 4
    bv_omega
  case unmarked => exact ⟨h.1, by show s.cnt.toNat ≤ 4; omega⟩
  case modeThenFlush hn => exact ⟨hn, by show s.cnt.toNat ≤ 4; bv_omega⟩

/-- Outside the flush phases and `E_SPC1` only the bound on `EIDX` is left to say. -/
theorem Engine.indexOk_of_eidx {e : Engine} (h : e.eidx.toNat ≤ 2)
    (hp : (e.ph ≠ .lFlush ∧ e.ph ≠ .eFlush) ∧ e.ph ≠ .eSpc1) : e.indexOk := by
  simp [Engine.indexOk, h, hp]

theorem decline_not_indexed (n : BitVec 3) :
    (decline n ≠ .lFlush ∧ decline n ≠ .eFlush) ∧ decline n ≠ .eSpc1 := by
  rcases decline_eq n with ⟨hd, -⟩ | ⟨hd, -⟩ <;> simp [hd]

/-- A flush phase is entered at its first codeword, which exists. -/
theorem State.indexOk_enterFlush (s : State) {p : Phase} (hp : p = .lFlush ∨ p = .eFlush)
    (h : 0 < s.cnt.toNat) : (s.enterFlush p).indexOk := by
  have hn : 0 < ncw s.cnt.toNat := by simp only [ncw]; omega
  rcases hp with rfl | rfl <;> simp [Engine.indexOk, hn]

/-- `EIDX` and `ASZ` stay in their ranges (R26, R125, R163). -/
theorem Phase.Updated.indexOk {p : Phase} {s t : State} (hu : p.Updated s t) (hp : s.ph = p)
    (hc : s.countOk) (h : s.indexOk) : t.indexOk := by
  obtain ⟨he, hflush, hasz⟩ := h
  cases hu <;> simp only [Engine.countOk, hp] at hc
  case resting hp =>
    exact Engine.indexOk_of_eidx he (by cases p <;> simp [Phase.busy] at hp ⊢)
  case nextCodeword hi hf =>
    have := hflush (hp ▸ hf)
    have : ncw s.cnt.toNat ≤ 3 := Nat.min_le_right ..
    rcases hf with rfl | rfl <;> simp [Engine.indexOk] <;> bv_omega
  case fourth hn => exact State.indexOk_enterFlush _ (.inl rfl) (by rw [State.push_cnt, hn]; decide)
  case unmarked => exact State.indexOk_enterFlush _ (.inr rfl) hc.1
  case modeThenFlush hn => exact State.indexOk_enterFlush _ (.inr rfl) hn
  case shortTail => simp [Engine.indexOk, he]; omega
  case notFewLeft | longTail | tailDeclined =>
    exact Engine.indexOk_of_eidx he (decline_not_indexed _)
  all_goals exact Engine.indexOk_of_eidx he (by simp)

/-- No status and no flag is set. -/
def Engine.cleared (e : Engine) : Prop :=
  e.st = .none ∧ e.unl = false ∧ e.msw = false ∧ e.cheap = false

/-- In most phases nothing is set. -/
theorem Engine.flagsOk_of_cleared {e : Engine} (h : e.cleared)
    (hp : e.ph ≠ .halt ∧ e.ph ≠ .eMode ∧ e.ph ≠ .eFlush) : e.flagsOk := by
  cases hph : e.ph <;> simp_all [Engine.flagsOk, Engine.cleared]

theorem decline_not_ended (n : BitVec 3) :
    decline n ≠ .halt ∧ decline n ≠ .eMode ∧ decline n ≠ .eFlush := by
  rcases decline_eq n with ⟨hd, -⟩ | ⟨hd, -⟩ <;> simp [hd]

/-- The status and flags stay as the phase allows (R29 to R32, R38, R216). -/
theorem Phase.Updated.flagsOk {p : Phase} {s t : State} (hu : p.Updated s t) (hp : s.ph = p)
    (hc : s.countOk) (h : s.flagsOk) : t.flagsOk := by
  cases hu <;> simp only [Engine.countOk, Engine.flagsOk, hp] at hc h
  case resting hp => exact h
  case inputEnd | accepted | fourth | groupDone | switch | stay | fewLeft | shortTail | tailFits
      | more | noMore | room =>
    exact Engine.flagsOk_of_cleared h (by simp)
  case nextCodeword hi hf => rcases hf with rfl | rfl <;> exact h
  case notFewLeft | longTail | tailDeclined =>
    exact Engine.flagsOk_of_cleared h (decline_not_ended _)
  case illegal => exact .inr ⟨.inl rfl, by simp [h]⟩
  case noSpace hf =>
    rcases hf with rfl | rfl | rfl <;> exact .inr ⟨.inr rfl, by simp [h]⟩
  case full | unlatchSwitch => exact .inl ⟨rfl, by simp [h]⟩
  case pushedBack | unlatchPadding | marked => simp [Engine.flagsOk, h]
  case unmarked hn =>
    have : s.cnt.toNat ≤ 2 := by bv_omega
    simp [Engine.flagsOk, h, this]
  case modeThenFlush hn =>
    obtain ⟨hst, hmsw, hfl⟩ := h
    have h0 : s.cnt ≠ 0 := by rintro h0; simp [h0] at hn
    have h2 := (hc.resolve_left h0).1
    have hunl := hfl.resolve_right fun h => h0 h.2.2
    simp [Engine.flagsOk, hst, h2, hunl]
  case modeThenHalt hn =>
    obtain ⟨-, -, hfl⟩ := h
    exact .inl ⟨rfl, by simpa [hn] using hfl⟩
  case lastGroupDone =>
    obtain ⟨-, hcheap, hmsw, -⟩ := h
    refine .inl ⟨rfl, ?_⟩
    cases hu : s.msw <;> simp [*]

theorem resetEngine_controlInv (s : State) : s.resetEngine.ControlInv := by
  refine ⟨rfl, rfl, Engine.indexOk_of_eidx ?_ (by simp [State.resetEngine]), rfl, rfl, rfl, rfl⟩
  have := (Config.resetEidx s.draws).isLt
  simp [State.resetEngine]
  omega

theorem startRun_controlInv {s : State} (h : s.ControlInv) : s.startRun.ControlInv := by
  obtain ⟨hp, -, ⟨he, -⟩, -⟩ := h
  exact ⟨hp, Nat.zero_le 3, Engine.indexOk_of_eidx he (by simp), rfl, rfl, rfl, rfl⟩

theorem sample_controlInv {s : State} (h : s.ControlInv) : s.sample.ControlInv := h

theorem serve_controlInv {s : State} (h : s.ControlInv) (p : Phase) : (p.serve s).ControlInv := by
  obtain ⟨-, -, -, hp⟩ := p.sameOutside_serve s
  unfold State.ControlInv
  rwa [hp, p.serve_toEngine]

theorem update_controlInv {s : State} (h : s.ControlInv) : (s.ph.update s).ControlInv := by
  obtain ⟨hp, hc, hi, hf⟩ := h
  have hu := s.ph.updated s
  obtain ⟨⟨-, -, -, hpres⟩, -⟩ := hu.sameSurroundings
  exact ⟨hpres.trans hp, hu.countOk rfl hc, hu.indexOk rfl hc hi, hu.flagsOk rfl hc hf⟩

end Sys2Proof.Machine

namespace Sys2Proof.Proofs

open Sys2Proof.Machine

/-- Settles O45: each kind of step keeps the invariant; in a run, serving the command leaves the
engine as it is, and each outcome of the update keeps the three parts. -/
theorem stepKeepsTheControlInvariant : Obligations.StepKeepsTheControlInvariant := by
  intro s t h hs
  have hpres : s.presented = [] := h.1
  rcases step_next_cases hpres hs with ⟨-, rfl⟩ | rfl | ⟨-, rfl⟩ | ⟨-, rfl⟩
  · exact resetEngine_controlInv _
  · exact sample_controlInv h
  · exact startRun_controlInv (sample_controlInv h)
  · have hph : s.ph = (s.ph.serve s.sample).ph := by simp
    have hv := update_controlInv (serve_controlInv (sample_controlInv h) s.ph)
    rwa [← hph] at hv

end Sys2Proof.Proofs
end

section
/-! The flags and the status (R29 to R32, R37), and the settling of O49 and O50. -/

namespace Sys2Proof.Machine

/-- An update raises a flag in the flag's own phases, or leaves it (R30 to R32). -/
theorem Phase.Updated.flags {p : Phase} {s t : State} (hu : p.Updated s t) :
    (t.unl = s.unl ∨ t.unl = true ∧ (p = .eUnlp ∨ p = .eUnls ∨ p = .eSpck)) ∧
    (t.msw = s.msw ∨ t.msw = true ∧ p = .eMode) ∧
    (t.cheap = s.cheap ∨ t.cheap = true ∧ p = .ePb) := by
  cases hu <;> simp

/-- An update of a busy phase enters `HALT` with a status and `CNT = 0`, or leaves `ST` (R29,
R37). -/
theorem Phase.Updated.status {p : Phase} {s t : State} (hu : p.Updated s t) (hb : p.busy = true) :
    t.ph = .halt ∧ t.st ≠ .none ∧ t.cnt = 0 ∨ t.ph ≠ .halt ∧ t.st = s.st := by
  cases hu
  case resting hp => simp [hp] at hb
  case illegal | noSpace | full | lastGroupDone | unlatchSwitch | modeThenHalt =>
    exact .inl ⟨rfl, by simp [Exc.status], rfl⟩
  case notFewLeft | longTail | tailDeclined => exact .inr ⟨(decline_not_ended _).1, rfl⟩
  case nextCodeword hi hf => rcases hf with rfl | rfl <;> exact .inr ⟨by simp, rfl⟩
  all_goals exact .inr ⟨by simp, rfl⟩

end Sys2Proof.Machine

namespace Sys2Proof.Proofs

open Sys2Proof.Machine

/-- Settles O49: reset and `START` clear the flags, a wait leaves them, and an update raises each
in its own phases only. -/
theorem flagsAreSetByTheirPhasesOnly : Obligations.FlagsAreSetByTheirPhasesOnly := by
  intro s t hp hs
  rcases step_next_cases hp hs with ⟨hr, rfl⟩ | rfl | ⟨hb, rfl⟩ | ⟨-, rfl⟩
  · simp [State.resetEngine, hr]
  · simp +contextual
  · simp [hb]
  · obtain ⟨hunl, hmsw, hcheap⟩ := (s.ph.updated (s.ph.serve s.sample)).flags
    simp only [Phase.serve_toEngine, State.sample_toEngine] at hunl hmsw hcheap
    refine ⟨fun h0 h1 => ?_, fun h0 h1 => ?_, fun h0 h1 => ?_, ?_⟩
    · simpa [h0, h1] using hunl
    · simpa [h0, h1] using hmsw
    · simpa [h0, h1] using hcheap
    · rintro (⟨h0, h1⟩ | ⟨h0, h1⟩ | ⟨h0, h1⟩)
      · simp [h0, h1] at hunl
      · simp [h0, h1] at hmsw
      · simp [h0, h1] at hcheap

/-- Settles O50: in a run `ST` is written by the updates that enter `HALT`; otherwise by reset and
`START`. -/
theorem statusIsWrittenOnEntryToHalt : Obligations.StatusIsWrittenOnEntryToHalt := by
  intro s t hp hs
  rcases step_next_cases hp hs with ⟨hr, rfl⟩ | rfl | ⟨hb, rfl⟩ | ⟨hb, rfl⟩
  · simp [State.resetEngine, hr]
  · simp +contextual
  · simp [hb]
  · have hh : s.ph ≠ .halt := by intro h; simp [h, Phase.busy] at hb
    rcases (s.ph.updated (s.ph.serve s.sample)).status hb with ⟨hph, hst, hcnt⟩ | ⟨hph, hst⟩
    · exact ⟨fun _ _ => ⟨hst, hcnt⟩, fun _ => .inl ⟨hph, hh⟩⟩
    · simp only [Phase.serve_toEngine, State.sample_toEngine] at hst
      exact ⟨fun _ h => absurd h hph, fun h => absurd hst h⟩

end Sys2Proof.Proofs
end

section
/-! The host during a run (R33, R52, R53, R64), and the settling of O52: what serving a command
does to each part of the host; the update leaves the host alone. -/

namespace Sys2Proof.Machine

/-- The sink grows in the emitting phases only, by one codeword (R52). -/
theorem serve_host_out (p : Phase) (s : State) :
    (p.serve s).host.out = s.host.out ∨
      (p = .lFlush ∨ p = .eFlush ∨ p = .eUnlp ∨ p = .eUnls) ∧
        ∃ b, (p.serve s).host.out = s.host.out ++ [b] := by
  cases p <;> simp [Phase.serve, hostTake_host]

/-- The cursor moves by `TAKE` and `PUSHBACK` only (R191, R195). -/
theorem serve_host_pos (p : Phase) (s : State) :
    (p.serve s).host.pos ≠ s.host.pos →
      p = .lTake ∧ (p.serve s).host.pos = s.host.pos + 1 ∨
      p = .ePb ∧ (s.cnt.toNat ≤ s.host.pos → (p.serve s).host.pos + s.cnt.toNat = s.host.pos) := by
  cases p
  case lTake =>
    simp only [Phase.serve, hostTake_host]
    split <;> simp
  case ePb =>
    refine fun _ => .inr ⟨rfl, fun hn => ?_⟩
    simp only [Phase.serve, State.hostPushback_host]
    rw [posAfterPushback_of_taken _ hn]
    omega
  all_goals simp [Phase.serve]

/-- The mode is set by `SETMODE` only (R198). -/
theorem serve_host_mode (p : Phase) (s : State) :
    (p.serve s).host.mode ≠ s.host.mode → p = .eMode ∧ (p.serve s).host.mode = .default := by
  cases p <;> simp [Phase.serve, hostTake_host]

/-- The listed answers are used up by `SWITCHQ` only (R199). -/
theorem serve_host_sw (p : Phase) (s : State) :
    (p.serve s).host.sw ≠ s.host.sw → p = .lSwq := by
  cases p <;> simp [Phase.serve, hostTake_host]

/-- No command changes the input, the capacity or the constant answer. -/
theorem serve_host_fixed (p : Phase) (s : State) :
    (p.serve s).host.inp = s.host.inp ∧ (p.serve s).host.cap = s.host.cap ∧
      (p.serve s).host.swRest = s.host.swRest := by
  cases p <;> simp [Phase.serve, hostTake_host]

end Sys2Proof.Machine

namespace Sys2Proof.Proofs

open Sys2Proof.Machine

/-- Settles O52: a wait and a reset leave the host of a run alone, and a served command changes it
part by part as `serve_host_out` to `serve_host_fixed` say. -/
theorem hostChangesByItsCommandsOnly : Obligations.HostChangesByItsCommandsOnly := by
  intro s t hp hb hs
  have hh : s.sample.host = s.host := State.sample_host_of_busy hb
  rcases step_next_cases hp hs with ⟨-, rfl⟩ | rfl | ⟨hb', -⟩ | ⟨-, rfl⟩
  · have hr : s.sample.resetEngine.host = s.host := hh
    simp [hr]
  · simp [hh]
  · simp [hb] at hb'
  · obtain ⟨-, hu, -⟩ := (s.ph.updated (s.ph.serve s.sample)).sameSurroundings
    rw [hu, ← hh]
    exact ⟨serve_host_out _ _, serve_host_pos _ _, serve_host_mode _ _, serve_host_sw _ _,
      serve_host_fixed _ _⟩

end Sys2Proof.Proofs
end

section
/-! Registers that nothing reads (R24, R26, R28), and the settling of O55. Two states are alike
when the second is the first with other values in `BUF`, `EIDX` and `ASZ`, none of them where it is
read; each half of a step keeps states alike. -/

namespace Sys2Proof.Machine

/-! ### Cells below the count -/

/-- The cells below `n` are the same. -/
def Buf.sameBelow (n : Nat) (b b' : Buf) : Prop := ∀ i, i < n → b.get i = b'.get i

theorem Buf.sameBelow_zero (b b' : Buf) : Buf.sameBelow 0 b b' := nofun

theorem Buf.cw_congr {n : Nat} {b b' : Buf} (h : Buf.sameBelow n b b') (i : Nat) :
    b.cw i n = b'.cw i n := by
  have hval : ∀ j, b.val j n = b'.val j n := by
    intro j
    unfold Buf.val
    split
    · rw [h j ‹_›]
    · rfl
  simp only [Buf.cw, hval]

theorem Buf.pending_congr {n : Nat} {b b' : Buf} (h : Buf.sameBelow n b b') :
    b.pending n = b'.pending n := by
  have hcells : ∀ (c : Buf) (i : Nat), c.cells[i]? = if i < 4 then some (c.get i) else none := by
    intro c i
    rcases i with _ | _ | _ | _ | i <;> simp [Buf.cells, Buf.get]
  apply List.ext_getElem?
  intro i
  simp only [Buf.pending, List.getElem?_take, hcells]
  split
  · rw [h i ‹_›]
  · rfl

theorem Buf.get_set_self (b : Buf) (i : Nat) (c : Byte) :
    (b.set i c).get i = if i < 4 then c else 0 := by
  rcases i with _ | _ | _ | _ | i <;> simp [Buf.set, Buf.get]

theorem Buf.get_set_of_ne (b : Buf) {i j : Nat} (c : Byte) (h : i ≠ j) :
    (b.set j c).get i = b.get i := by
  rcases j with _ | _ | _ | _ | j <;> rcases i with _ | _ | _ | _ | i <;>
    simp [Buf.set, Buf.get] at h ⊢

theorem Buf.sameBelow_set {n : Nat} {b b' : Buf} (h : Buf.sameBelow n b b') (c : Byte) :
    Buf.sameBelow (n + 1) (b.set n c) (b'.set n c) := by
  intro i hi
  by_cases hn : i = n
  · subst hn
    rw [Buf.get_set_self, Buf.get_set_self]
  · rw [Buf.get_set_of_ne _ _ hn, Buf.get_set_of_ne _ _ hn, h i (by omega)]

/-! ### Alike states -/

/-- The state with other values in the registers that may be stale. -/
def State.withStale (s : State) (b : Buf) (x a : BitVec 2) : State :=
  { s with buf := b, eidx := x, asz := a }

@[simp] theorem State.withStale_buf (s : State) (b : Buf) (x a : BitVec 2) :
    (s.withStale b x a).buf = b := rfl
@[simp] theorem State.withStale_cnt (s : State) (b : Buf) (x a : BitVec 2) :
    (s.withStale b x a).cnt = s.cnt := rfl
@[simp] theorem State.withStale_ph (s : State) (b : Buf) (x a : BitVec 2) :
    (s.withStale b x a).ph = s.ph := rfl
@[simp] theorem State.withStale_eidx (s : State) (b : Buf) (x a : BitVec 2) :
    (s.withStale b x a).eidx = x := rfl
@[simp] theorem State.withStale_asz (s : State) (b : Buf) (x a : BitVec 2) :
    (s.withStale b x a).asz = a := rfl
@[simp] theorem State.withStale_hrsp (s : State) (b : Buf) (x a : BitVec 2) :
    (s.withStale b x a).hrsp = s.hrsp := rfl
@[simp] theorem State.withStale_host (s : State) (b : Buf) (x a : BitVec 2) :
    (s.withStale b x a).host = s.host := rfl
@[simp] theorem State.withStale_sizeFn (s : State) (b : Buf) (x a : BitVec 2) :
    (s.withStale b x a).sizeFn = s.sizeFn := rfl
@[simp] theorem State.withStale_nextSample (s : State) (b : Buf) (x a : BitVec 2) :
    (s.withStale b x a).nextSample = s.nextSample := rfl
@[simp] theorem State.withStale_sample (s : State) (b : Buf) (x a : BitVec 2) :
    (s.withStale b x a).sample = s.sample.withStale b x a := rfl

theorem State.hostTake_withStale (s : State) (b : Buf) (x a : BitVec 2) :
    (s.withStale b x a).hostTake = s.hostTake.withStale b x a := by
  simp only [State.hostTake, State.withStale_host]
  cases s.host.unread <;> rfl

/-- The second state is the first but for cells at or beyond `CNT`, `EIDX` outside the flush phases
and `ASZ` outside `E_SPC1`. -/
inductive State.Alike (s : State) : State → Prop
  | mk (b : Buf) (x a : BitVec 2) (hb : Buf.sameBelow s.cnt.toNat s.buf b)
    (hx : s.ph = .lFlush ∨ s.ph = .eFlush → s.eidx = x) (ha : s.ph = .eSpc1 → s.asz = a) :
    Alike s (s.withStale b x a)

theorem State.alike_iff {s t : State} : s.Alike t ↔ s.agrees t.toEngine ∧ s.sameSurroundings t := by
  constructor
  · rintro ⟨b, x, a, hb, hx, ha⟩
    exact ⟨⟨rfl, rfl, rfl, rfl, rfl, rfl, hb, hx, ha⟩, ⟨rfl, rfl, rfl, rfl⟩, rfl, rfl, rfl, rfl⟩
  · rintro ⟨⟨hcnt, hph, hst, hunl, hmsw, hcheap, hb, hx, ha⟩, ⟨hpins, hsize, hin, hpr⟩, hhost, hrsp,
      hforced, hdraws⟩
    have ht : t = s.withStale t.buf t.eidx t.asz := by
      obtain ⟨⟨⟩⟩ := t
      simp_all [State.withStale]
    rw [ht]
    exact .mk _ _ _ hb hx ha

theorem State.Alike.of_eq {s t : State} (b : Buf) (x a : BitVec 2) (ht : t = s.withStale b x a)
    (hb : Buf.sameBelow s.cnt.toNat s.buf b) (hx : s.ph = .lFlush ∨ s.ph = .eFlush → s.eidx = x)
    (ha : s.ph = .eSpc1 → s.asz = a) : s.Alike t :=
  ht ▸ .mk b x a hb hx ha

/-- Where neither `EIDX` nor `ASZ` is read, the cells below the count are all that counts. -/
theorem State.Alike.of_sameBelow {s t : State} (b : Buf) (x a : BitVec 2)
    (ht : t = s.withStale b x a) (hp : (s.ph ≠ .lFlush ∧ s.ph ≠ .eFlush) ∧ s.ph ≠ .eSpc1)
    (hb : Buf.sameBelow s.cnt.toNat s.buf b) : s.Alike t :=
  .of_eq b x a ht hb (by simp [hp]) (by simp [hp])

theorem State.Alike.ite {c : Prop} {i j : Decidable c} {s s' t t' : State} (h : s.Alike t)
    (h' : s'.Alike t') : (@ite _ c i s s').Alike (@ite _ c j t t') := by
  by_cases hc : c
  · rwa [if_pos hc, if_pos hc]
  · rwa [if_neg hc, if_neg hc]

theorem State.sameBelow_push {s : State} {b : Buf} (c : Byte)
    (hb : Buf.sameBelow s.cnt.toNat s.buf b) :
    Buf.sameBelow (s.push c).cnt.toNat (s.push c).buf (b.set s.cnt.toNat c) := by
  intro i hi
  refine Buf.sameBelow_set hb c i ?_
  simp only [State.push_cnt] at hi
  bv_omega

/-! ### The command of the phase -/

theorem operandFault_withStale {s : State} {b : Buf} {x : BitVec 2} (a : BitVec 2)
    (hx : s.ph = .lFlush ∨ s.ph = .eFlush → s.eidx = x) :
    s.ph.operandFault (s.withStale b x a).toEngine = s.ph.operandFault s.toEngine := by
  cases hph : s.ph
  case lFlush | eFlush =>
    obtain rfl := hx (by simp [hph])
    rfl
  all_goals rfl

/-- Serving a command reads no stale register and writes none. -/
theorem serve_withStale {s : State} {b : Buf} {x a : BitVec 2}
    (hb : Buf.sameBelow s.cnt.toNat s.buf b)
    (hx : s.ph = .lFlush ∨ s.ph = .eFlush → s.eidx = x) (ha : s.ph = .eSpc1 → s.asz = a) :
    s.ph.serve (s.withStale b x a) = (s.ph.serve s).withStale b x a := by
  cases hph : s.ph
  case lFlush | eFlush =>
    obtain rfl := hx (by simp [hph])
    show (s.withStale b s.eidx a).hostEmit (b.cw s.eidx.toNat s.cnt.toNat) = _
    rw [← Buf.cw_congr hb]
    rfl
  case eSpc1 =>
    obtain rfl := ha hph
    rfl
  case lTake => exact State.hostTake_withStale s b x a
  all_goals rfl

theorem command_withStale {s : State} {b : Buf} {x a : BitVec 2}
    (hb : Buf.sameBelow s.cnt.toNat s.buf b)
    (hx : s.ph = .lFlush ∨ s.ph = .eFlush → s.eidx = x) (ha : s.ph = .eSpc1 → s.asz = a) :
    (s.withStale b x a).command = s.command := by
  cases hph : s.ph <;> simp only [Engine.command, State.withStale, hph]
  case lFlush | eFlush =>
    rw [← hx (by simp [hph]), Buf.cw_congr hb]
  case eSpc1 => rw [ha hph]

theorem State.Alike.serve {s t : State} (h : s.Alike t) : (s.ph.serve s).Alike (t.ph.serve t) := by
  obtain ⟨b, x, a, hb, hx, ha⟩ := h
  show (s.ph.serve s).Alike (s.ph.serve (s.withStale b x a))
  rw [serve_withStale hb hx ha]
  exact .mk b x a (by simpa using hb) (by simpa using hx) (by simpa using ha)

/-! ### The update and the step -/

/-- Each outcome of an update takes alike states to alike states. -/
theorem State.Alike.update {s t : State} (h : s.Alike t) :
    (s.ph.update s).Alike (t.ph.update t) := by
  obtain ⟨b, x, a, hb, hx, ha⟩ := h
  rw [State.withStale_ph]
  cases hph : s.ph
  case idle | halt => exact .of_sameBelow b x a rfl (by simp [Phase.update]) hb
  case lTake =>
    simp only [Phase.update, State.withStale_hrsp]
    cases s.hrsp.char? with
    | none => exact .of_sameBelow b x a rfl (by simp) hb
    | some c =>
      refine .ite (.ite ?_ ?_) ?_
      · have hpush := State.sameBelow_push c hb
        exact .of_eq (b.set s.cnt.toNat c) 0 a rfl hpush (fun _ => rfl) (by simp)
      · exact .of_sameBelow (b.set s.cnt.toNat c) x a rfl (by simp) (State.sameBelow_push c hb)
      · exact .of_sameBelow b x a rfl (by simp) (Buf.sameBelow_zero _ _)
  case lFlush | eFlush =>
    obtain rfl := hx (by simp [hph])
    refine .ite ?_ ?_
    · exact .of_sameBelow b s.eidx a rfl (by simp) (Buf.sameBelow_zero _ _)
    · exact .of_eq b (s.eidx + 1) a rfl hb (fun _ => rfl) (by simp)
  case lSwq =>
    exact .of_sameBelow b x a rfl (by simp only [Phase.update]; split <;> simp) hb
  case eCnt =>
    simp only [Phase.update, State.withStale_hrsp, State.withStale_cnt]
    exact .of_sameBelow b x a rfl (by split <;> simp [decline_not_indexed]) hb
  case ePeek =>
    have htail : tail b s.cnt s.hrsp = tail s.buf s.cnt s.hrsp := by
      rw [tail, tail, Buf.pending_congr hb]
    simp only [Phase.update, State.withStale_hrsp, State.withStale_cnt, State.withStale_sizeFn,
      State.withStale_buf, htail]
    exact .of_eq b x _ rfl hb (by split <;> simp [decline_not_indexed]) (fun _ => rfl)
  case eSpc1 =>
    obtain rfl := ha hph
    simp only [Phase.update, State.withStale_hrsp, State.withStale_cnt, State.withStale_asz]
    cases s.hrsp.space? with
    | none => exact .of_sameBelow b x s.asz rfl (by simp) (Buf.sameBelow_zero _ _)
    | some n => exact .of_sameBelow b x s.asz rfl (by simp; split <;> simp [decline_not_indexed]) hb
  case ePb => exact .of_sameBelow b x a rfl (by simp [Phase.update]) (Buf.sameBelow_zero _ _)
  case eMore =>
    exact .of_sameBelow b x a rfl (by simp only [Phase.update]; split <;> simp) hb
  case eSpc0 =>
    simp only [Phase.update, State.withStale_hrsp]
    cases s.hrsp.space? with
    | none => exact .of_sameBelow b x a rfl (by simp) (Buf.sameBelow_zero _ _)
    | some n =>
      refine .ite ?_ ?_
      · exact .of_sameBelow b x a rfl (by simp) hb
      · exact .of_sameBelow b x a rfl (by simp) (Buf.sameBelow_zero _ _)
  case eUnlp => exact .of_sameBelow b x a rfl (by simp [Phase.update]) hb
  case eUnls => exact .of_sameBelow b x a rfl (by simp [Phase.update]) (Buf.sameBelow_zero _ _)
  case eSpck =>
    simp only [Phase.update, State.withStale_hrsp, State.withStale_cnt]
    cases s.hrsp.space? with
    | none => exact .of_sameBelow b x a rfl (by simp) (Buf.sameBelow_zero _ _)
    | some n =>
      refine .ite ?_ ?_
      · have hpush := State.sameBelow_push unlatchByte hb
        exact .of_sameBelow (b.set s.cnt.toNat unlatchByte) x a rfl (by simp) hpush
      · exact .of_eq b 0 a rfl hb (fun _ => rfl) (by simp)
  case eMode =>
    refine .ite ?_ ?_
    · exact .of_eq b 0 a rfl hb (fun _ => rfl) (by simp)
    · exact .of_sameBelow b x a rfl (by simp) (Buf.sameBelow_zero _ _)

theorem State.Alike.sample {s t : State} (h : s.Alike t) : s.sample.Alike t.sample := by
  obtain ⟨b, x, a, hb, hx, ha⟩ := h
  exact .mk b x a hb hx ha

theorem State.Alike.resetEngine {s t : State} (h : s.Alike t) :
    s.resetEngine.Alike t.resetEngine := by
  obtain ⟨b, x, a, -, -, -⟩ := h
  exact .of_sameBelow _ _ _ rfl (by simp [State.resetEngine]) (Buf.sameBelow_zero _ _)

theorem State.Alike.startRun {s t : State} (h : s.Alike t) : s.startRun.Alike t.startRun := by
  obtain ⟨b, x, a, -, -, -⟩ := h
  exact .of_sameBelow b x a rfl (by simp) (Buf.sameBelow_zero _ _)

theorem State.Alike.step {s t s' : State} (h : s.Alike t) (hp : s.presented = [])
    (hs : step s = .next s') : ∃ t', step t = .next t' ∧ s'.Alike t' := by
  have hsample := h.sample
  have hrun := hsample.serve.update
  simp only [Phase.serve_toEngine] at hrun
  obtain ⟨b, x, a, hb, hx, ha⟩ := h
  rw [step_of_presented_nil hp] at hs
  rw [step_of_presented_nil (s := s.withStale b x a) hp]
  simp only [State.withStale_ph, State.withStale_nextSample, operandFault_withStale a hx]
    at hsample hrun ⊢
  split_ifs at hs ⊢ with hr hb hv hst
  · obtain rfl := by simpa using hs
    exact ⟨_, rfl, hsample.resetEngine⟩
  · obtain ⟨hf, rfl⟩ := checked_next.mp hs
    exact ⟨_, checked_next.mpr ⟨hf, rfl⟩, hrun⟩
  · obtain rfl := by simpa using hs
    exact ⟨_, rfl, hsample⟩
  · obtain rfl := by simpa using hs
    exact ⟨_, if_pos hst, hsample.startRun⟩
  · obtain rfl := by simpa using hs
    exact ⟨_, if_neg hst, hsample⟩

end Sys2Proof.Machine

namespace Sys2Proof.Proofs

open Sys2Proof.Machine

/-- Settles O55: the relation of the statement is `State.Alike`, the command reads no stale
register, and `State.Alike.step` is the step. -/
theorem staleRegistersAreUnobservable : Obligations.StaleRegistersAreUnobservable := by
  intro s1 s2 hp hagree hsame
  have h : s1.Alike s2 := State.alike_iff.mpr ⟨hagree, hsame⟩
  refine ⟨?_, ?_, ?_, ?_⟩
  · obtain ⟨b, x, a, hb, hx, ha⟩ := h
    rw [Engine.hcmd, Engine.hcmd, command_withStale hb hx ha]
  · obtain ⟨b, x, a, -, -, -⟩ := h
    rfl
  · obtain ⟨b, x, a, -, -, -⟩ := h
    rfl
  · intro t1 hs
    obtain ⟨t2, ht, halike⟩ := h.step hp hs
    exact ⟨t2, ht, State.alike_iff.mp halike⟩

end Sys2Proof.Proofs
end

section
/-! The mode flag of the host (R33, R64 c), and the settling of O56. Every operation commutes with
changing the flag, but for `SETMODE` and `E_MODE`, which forget it. -/

namespace Sys2Proof.Machine

/-- `f` on the next state of an outcome. -/
def onNext (f : State → State) : Host.Outcome State Fault Refusal → Host.Outcome State Fault Refusal
  | .next s => .next (f s)
  | .fault r => .fault r
  | .refused r => .refused r

@[simp] theorem State.withMode_toEngine (s : State) (m : HostMode) :
    (s.withMode m).toEngine = s.toEngine := rfl
@[simp] theorem State.withMode_hrsp (s : State) (m : HostMode) : (s.withMode m).hrsp = s.hrsp := rfl
@[simp] theorem State.withMode_pins (s : State) (m : HostMode) : (s.withMode m).pins = s.pins := rfl
@[simp] theorem State.withMode_waiting (s : State) (m : HostMode) :
    (s.withMode m).waiting = s.waiting := rfl
@[simp] theorem State.withMode_fetch (s : State) (m : HostMode) :
    (s.withMode m).fetch = s.fetch := rfl
@[simp] theorem State.withMode_fetched (s : State) (m : HostMode) :
    (s.withMode m).fetched = s.fetched.withMode m := rfl
@[simp] theorem State.withMode_withMode (s : State) (m m' : HostMode) :
    (s.withMode m).withMode m' = s.withMode m' := rfl

/-! ### The operations commute with the mode flag -/

theorem withMode_ite {c : Prop} {i j : Decidable c} {s s' t t' : State} {m : HostMode}
    (h : s' = s.withMode m) (h' : t' = t.withMode m) :
    @ite _ c i s' t' = (@ite _ c j s t).withMode m := by
  by_cases hc : c
  · rwa [if_pos hc, if_pos hc]
  · rwa [if_neg hc, if_neg hc]

section
variable (s : State) (m : HostMode)

theorem acceptChar_withMode (c : Byte) :
    (s.withMode m).acceptChar c = (s.acceptChar c).withMode m :=
  withMode_ite rfl rfl

theorem hostTake_withMode : (s.withMode m).hostTake = s.hostTake.withMode m := by
  have hu : (s.withMode m).host.unread = s.host.unread := rfl
  unfold State.hostTake
  rw [hu]
  cases s.host.unread <;> rfl

theorem checked_withMode (f : Option Fault) (t : State) :
    checked f (t.withMode m) = onNext (·.withMode m) (checked f t) := by
  cases f <;> rfl

theorem withFreeCell_withMode (t : State) :
    withFreeCell (s.withMode m) (t.withMode m) = onNext (·.withMode m) (withFreeCell s t) := by
  rw [withFreeCell_eq_checked, withFreeCell_eq_checked, checked_withMode, State.withMode_toEngine]

theorem acceptClass_withMode (c : Byte) :
    acceptClass c (s.withMode m) = onNext (·.withMode m) (acceptClass c s) := by
  rw [acceptClass, acceptClass, acceptChar_withMode, withFreeCell_withMode]

theorem serve_withMode {p : Phase} (hp : p ≠ .eMode) :
    p.serve (s.withMode m) = (p.serve s).withMode m := by
  cases p
  case eMode => exact absurd rfl hp
  case lTake => exact hostTake_withMode s m
  all_goals rfl

theorem update_withMode (p : Phase) : p.update (s.withMode m) = (p.update s).withMode m := by
  cases p
  case lTake =>
    simp only [Phase.update, State.withMode_hrsp]
    cases s.hrsp.char? with
    | none => rfl
    | some c => exact withMode_ite (acceptChar_withMode s m c) rfl
  case lFlush | eFlush | eMode => exact withMode_ite rfl rfl
  case eSpc1 =>
    simp only [Phase.update, State.withMode_hrsp]
    cases s.hrsp.space? <;> rfl
  case eSpc0 | eSpck =>
    simp only [Phase.update, State.withMode_hrsp]
    cases s.hrsp.space? with
    | none => rfl
    | some n => exact withMode_ite rfl rfl
  all_goals rfl

theorem exec_phase_withMode {p : Phase} (hb : p.busy = true) (hp : p ≠ .eMode) :
    exec (decodePhase p.code) (s.withMode m) =
      onNext (·.withMode m) (exec (decodePhase p.code) s) := by
  rw [exec_phase hb, exec_phase hb, serve_withMode s m hp, update_withMode, checked_withMode,
    State.withMode_toEngine]

theorem exec_withMode (i : Instr) :
    exec i (s.withMode m) = onNext (·.withMode m) (exec i s) ∨
      exec i (s.withMode m) = exec i s := by
  cases i
  case eMode | setmode => exact .inr rfl
  case lTake => exact .inl (exec_phase_withMode s m (p := .lTake) rfl (by decide))
  case lFlush => exact .inl (exec_phase_withMode s m (p := .lFlush) rfl (by decide))
  case ePeek => exact .inl (exec_phase_withMode s m (p := .ePeek) rfl (by decide))
  case eSpc1 => exact .inl (exec_phase_withMode s m (p := .eSpc1) rfl (by decide))
  case ePb => exact .inl (exec_phase_withMode s m (p := .ePb) rfl (by decide))
  case eSpc0 => exact .inl (exec_phase_withMode s m (p := .eSpc0) rfl (by decide))
  case eSpck => exact .inl (exec_phase_withMode s m (p := .eSpck) rfl (by decide))
  case eFlush => exact .inl (exec_phase_withMode s m (p := .eFlush) rfl (by decide))
  case idle | halt | start => exact .inl (congrArg Host.Outcome.next (withMode_ite rfl rfl))
  case chA | chB40 | chB50 | chB58 | chB5C | chB5E => exact .inl (acceptClass_withMode s m _)
  case take => exact .inl (congrArg _ (hostTake_withMode s m))
  all_goals exact .inl rfl

/-- Sampling keeps the changed flag, or replaces the host. -/
theorem sample_withMode : ∃ m', (s.withMode m).sample = s.sample.withMode m' := by
  have hn (h : HostCtx) : ({ s with host := h } : State).nextSample = s.nextSample := rfl
  cases hb : s.ph.busy
  · cases ha : s.nextSample.hostAct with
    | none => exact ⟨m, by simp [State.sample, hn, hb, ha, State.withMode]⟩
    | some h => exact ⟨h.mode, by simp [State.sample, hn, hb, ha, State.withMode]⟩
  · exact ⟨m, by simp [State.sample, hn, hb, State.withMode]⟩

end

end Sys2Proof.Machine

namespace Sys2Proof.Proofs

open Sys2Proof.Machine

/-- Settles O56: reset, wait and fetch do not look at the flag, and the fetched operation commutes
with changing it or forgets it. -/
theorem modeFlagIsNeverRead : Obligations.ModeFlagIsNeverRead := by
  intro s t m hs
  obtain ⟨m', hm⟩ := sample_withMode s m
  unfold step
  rw [hm]
  simp only [State.withMode_pins, State.withMode_waiting, State.withMode_fetch,
    State.withMode_fetched, State.sample_pins]
  rcases step_cases hs with ⟨hr, rfl⟩ | ⟨hr, hw, rfl⟩ | ⟨hr, hw, i, hd, hx⟩
  · exact ⟨_, if_pos hr, rfl⟩
  · exact ⟨s.sample.withMode m', by simp [hr, hw], rfl⟩
  · simp only [hr, hw, hd]
    rcases exec_withMode s.sample.fetched m' i with h | h <;> rw [hx] at h
    · exact ⟨_, h, rfl⟩
    · exact ⟨_, h, rfl⟩

end Sys2Proof.Proofs
end

section
/-! Where the phases and the character classes stop (R21, R125, R127, log entry 15), and the
settling of O25. -/

namespace Sys2Proof.Machine

/-- A phase whose operands are out of range stops. -/
theorem exec_phase_fault {p : Phase} {s : State} {f : Fault} (hb : p.busy = true)
    (hf : p.operandFault s.toEngine = some f) : exec (decodePhase p.code) s = .fault f := by
  rw [exec_phase hb, hf]
  rfl

/-- The character an encodable class stands for (R81). -/
def acceptedChar : Instr → Option Byte
  | .chA x => some (0b001#3 ++ x)
  | .chB40 x => some (0b0100#4 ++ x)
  | .chB50 x => some (0b01010#5 ++ x)
  | .chB58 x => some (0b010110#6 ++ x)
  | .chB5C x => some (0b0101110#7 ++ x)
  | .chB5E => some 0x5E
  | _ => none

theorem acceptedChar_decodeChar : ∀ c : Byte, encodable c = true →
    acceptedChar (decodeChar c) = some c := by
  decide

theorem exec_of_acceptedChar {i : Instr} {c : Byte} (h : acceptedChar i = some c) (s : State) :
    exec i s = acceptClass c s := by
  cases i <;> simp only [acceptedChar, Option.some.injEq, reduceCtorEq] at h
  all_goals subst h; rfl

theorem exec_encodableChar {c : Byte} (hc : encodable c = true) (s : State) :
    exec (decodeChar c) s = acceptClass c s :=
  exec_of_acceptedChar (acceptedChar_decodeChar c hc) s

end Sys2Proof.Machine

namespace Sys2Proof.Proofs

open Sys2Proof.Machine

/-- Settles O25: a phase faults where `Phase.operandFault` says, and an encodable class where the
cell `BUF[CNT]` does not exist. -/
theorem outOfRangeOperandsFault : Obligations.OutOfRangeOperandsFault := by
  intro s
  refine ⟨?_, ?_, ?_, ?_, ?_⟩
  · intro h i hi
    simp only [List.mem_cons, List.not_mem_nil, or_false] at hi
    rcases hi with rfl | rfl | rfl
    · exact exec_phase_fault (p := .lTake) rfl (if_pos h)
    · exact exec_phase_fault (p := .ePb) rfl (if_pos h)
    · exact exec_phase_fault (p := .eSpck) rfl (if_pos h)
  · intro h c hc
    rw [exec_encodableChar hc]
    exact if_neg (by omega)
  · intro h
    exact exec_phase_fault (p := .ePeek) rfl (if_pos h)
  · intro h i hi
    simp only [List.mem_cons, List.not_mem_nil, or_false] at hi
    rcases hi with rfl | rfl
    · exact exec_phase_fault (p := .lFlush) rfl (if_pos h)
    · exact exec_phase_fault (p := .eFlush) rfl (if_pos h)
  · intro h1 h4 hidx i hi
    have hc : ¬(s.cnt = 0 ∨ 4 < s.cnt.toNat) := by bv_omega
    simp only [List.mem_cons, List.not_mem_nil, or_false] at hi
    rcases hi with rfl | rfl
    · exact exec_phase_fault (p := .lFlush) rfl ((if_neg hc).trans (if_pos hidx))
    · exact exec_phase_fault (p := .eFlush) rfl ((if_neg hc).trans (if_pos hidx))

end Sys2Proof.Proofs
end

section
/-! The `STATUS` view (R34, R29), and the settling of O44. -/

namespace Sys2Proof.Machine

/-- The fields of an 8-bit word laid out as the `STATUS` view (R34). -/
theorem statusLayout_fields : ∀ (busy done unl msw cheap : Bool) (st : BitVec 2),
    let w := bit busy ++ bit done ++ st ++ bit unl ++ bit msw ++ bit cheap ++ 0#1
    w[7] = busy ∧ w[6] = done ∧ w.extractLsb' 4 2 = st ∧ w[3] = unl ∧ w[2] = msw ∧ w[1] = cheap ∧
      w[0] = false := by
  decide

theorem Engine.status_fields (e : Engine) :
    e.status[7] = e.ph.busy ∧ e.status[6] = (e.ph == .halt) ∧ e.status.extractLsb' 4 2 = e.st.code ∧
      e.status[3] = e.unl ∧ e.status[2] = e.msw ∧ e.status[1] = e.cheap ∧ e.status[0] = false :=
  statusLayout_fields ..

theorem Phase.busy_iff (p : Phase) : p.busy = true ↔ p ≠ .idle ∧ p ≠ .halt := by
  cases p <;> decide

end Sys2Proof.Machine

namespace Sys2Proof.Proofs

open Sys2Proof.Machine

/-- Settles O44: the fields are those of the layout, `BUSY` by `Phase.busy_iff`, `ST` by its
codes. -/
theorem statusViewFields : Obligations.StatusViewFields := by
  intro e
  obtain ⟨hbusy, hdone, hst, hflags⟩ := e.status_fields
  refine ⟨?_, ?_, ?_, ?_, ?_, ?_, hflags⟩
  · rw [hbusy, Phase.busy_iff]
  · rw [hdone, beq_iff_eq]
  all_goals
    intro h
    rw [hst, h]
    rfl

end Sys2Proof.Proofs
end

section
/-! The reset state (R35), and the settling of O7. -/

namespace Sys2Proof.Proofs

open Sys2Proof.Machine

/-- Settles O7: each conjunct is a fact about the one state. -/
theorem resetStateMeetsTheInvariants : Obligations.ResetStateMeetsTheInvariants := by
  have hindex : State.reset.indexOk := ⟨by decide, by decide, by decide⟩
  have hpending : State.reset.pendingOk := ⟨by decide, by decide⟩
  exact ⟨⟨rfl, rfl, hindex, rfl, rfl, rfl, rfl⟩, ⟨rfl, Nat.zero_le _, hpending, nofun⟩,
    by decide, rfl⟩

end Sys2Proof.Proofs
end

section
/-! The host's side of the invariant (R51, R142, R160, R195), and the settling of O46: serving a
command keeps the cursor within the input, and each outcome of an update keeps the pending cells the
last characters taken. -/

namespace Sys2Proof.Machine

/-! ### Taking a character -/

/-- A window of a list, one longer. -/
theorem take_succ_drop {l : List Byte} {p n : Nat} {c : Byte} (h : l[p + n]? = some c) :
    (l.drop p).take (n + 1) = (l.drop p).take n ++ [c] := by
  simp [List.take_add_one, h]

/-- `TAKE` at the end of the input (R191). -/
theorem hostTake_of_none {s : State} (hf : s.forced = []) (hr : s.hostTake.hrsp.char? = none) :
    s.host.inp.length ≤ s.host.pos ∧ s.hostTake.host = s.host := by
  rw [hostTake_char? hf, List.getElem?_eq_none_iff] at hr
  exact ⟨hr, by rw [hostTake_host, if_neg (by omega)]⟩

/-- `TAKE` before the end of the input (R191). -/
theorem hostTake_of_some {s : State} {c : Byte} (hf : s.forced = [])
    (hr : s.hostTake.hrsp.char? = some c) :
    s.host.inp[s.host.pos]? = some c ∧
      s.hostTake.host = { s.host with pos := s.host.pos + 1 } := by
  rw [hostTake_char? hf] at hr
  obtain ⟨hlt, -⟩ := List.getElem?_eq_some_iff.mp hr
  exact ⟨hr, by rw [hostTake_host, if_pos hlt]⟩

/-- A character pushed is the youngest of the pending ones (R21, R22). -/
theorem Buf.pending_set_succ (b : Buf) {k : Nat} (c : Byte) (hk : k ≤ 3) :
    (b.set k c).pending (k + 1) = b.pending k ++ [c] := by
  interval_cases k <;> rfl

theorem State.push_cnt_toNat {s : State} (c : Byte) (h : s.cnt.toNat ≤ 3) :
    (s.push c).cnt.toNat = s.cnt.toNat + 1 := by
  rw [State.push_cnt]
  bv_omega

theorem State.push_pending {s : State} (c : Byte) (h : s.cnt.toNat ≤ 3) :
    (s.push c).buf.pending (s.push c).cnt.toNat = s.buf.pending s.cnt.toNat ++ [c] := by
  rw [State.push_cnt_toNat c h]
  exact s.buf.pending_set_succ c h

/-! ### The pending cells -/

/-- The pending cells are the last `CNT` characters taken, each encodable (R142, R195 b). -/
def State.pendingTaken (s : State) : Prop :=
  s.cnt.toNat ≤ s.host.pos ∧
  (s.host.inp.drop (s.host.pos - s.cnt.toNat)).take s.cnt.toNat = s.buf.pending s.cnt.toNat ∧
  ∀ c ∈ s.buf.pending s.cnt.toNat, encodable c = true

theorem State.pendingTaken_of_cnt {s : State} (h : s.cnt = 0) : s.pendingTaken := by
  simp [State.pendingTaken, h, Buf.pending]

theorem State.pendingTaken.push {s t : State} {c : Byte} (h : s.pendingTaken)
    (hn : s.cnt.toNat ≤ 3) (hc : s.host.inp[s.host.pos]? = some c) (he : encodable c = true)
    (hcnt : t.cnt = (s.push c).cnt) (hbuf : t.buf = (s.push c).buf)
    (hhost : t.host = { s.host with pos := s.host.pos + 1 }) : t.pendingTaken := by
  obtain ⟨hle, htake, henc⟩ := h
  have hat : s.host.inp[s.host.pos - s.cnt.toNat + s.cnt.toNat]? = some c := by
    rwa [Nat.sub_add_cancel hle]
  unfold State.pendingTaken
  rw [hcnt, hbuf, hhost, State.push_pending c hn, State.push_cnt_toNat c hn]
  refine ⟨by simpa using hle, ?_, ?_⟩
  · simp only [Nat.add_sub_add_right]
    rw [take_succ_drop hat, htake]
  · simpa [or_imp, forall_and, he] using henc

theorem State.pendingOk_iff (s : State) :
    s.pendingOk ↔ (s.ph.holdsCharacters = true → s.pendingTaken) ∧
      (s.ph.afterLoop = true → s.cnt ≠ 0 → s.host.pos = s.host.inp.length) := Iff.rfl

theorem Phase.holdsCharacters_of_afterLoop {p : Phase} (h : p.afterLoop = true) :
    p.holdsCharacters = true := by
  revert h
  cases p <;> decide

theorem Phase.holdsCharacters_of_resting {p : Phase} (h : p.busy = false) :
    p.holdsCharacters = false := by
  revert h
  cases p <;> decide

/-- Where no cell holds a character nothing is asked of the cells. -/
theorem State.pendingOk_of_not_holds {s : State} (h : s.ph.holdsCharacters = false) :
    s.pendingOk := by
  have hl : s.ph.afterLoop ≠ true := fun hl => by
    simp [Phase.holdsCharacters_of_afterLoop hl] at h
  exact ⟨fun hh => absurd hh (by simp [h]), fun hh => absurd hh hl⟩

theorem State.pendingOk_of_cnt {s : State} (h : s.cnt = 0) : s.pendingOk :=
  ⟨fun _ => State.pendingTaken_of_cnt h, fun _ hn => absurd h hn⟩

/-- In the loop, what is asked of the cells is that they were taken. -/
theorem State.pendingOk_of_taken {s : State} (h : s.pendingTaken) (hl : s.ph.afterLoop = false) :
    s.pendingOk :=
  ⟨fun _ => h, fun hh => absurd hh (by simp [hl])⟩

/-- At the end of the input nothing more is asked than that the cells were taken. -/
theorem State.pendingOk_of_inputEnd {s : State} (h : s.pendingTaken)
    (he : s.cnt ≠ 0 → s.host.pos = s.host.inp.length) : s.pendingOk :=
  ⟨fun _ => h, fun _ => he⟩

/-! ### A step -/

/-- Each outcome of an update keeps the pending cells the last characters taken (R142, R160,
R195). -/
theorem Phase.Updated.pendingOk {p : Phase} {s t : State} (hu : p.Updated (p.serve s) t)
    (hp : s.ph = p) (hc : s.countOk) (hf : s.forced = []) (hw : Memory.wf s.host)
    (h : s.pendingOk) : t.pendingOk := by
  obtain ⟨htaken, hend⟩ := s.pendingOk_iff.mp h
  rw [hp] at htaken hend
  cases hu <;> simp only [Engine.countOk, hp] at hc
  case resting hb => exact State.pendingOk_of_not_holds (Phase.holdsCharacters_of_resting hb)
  case illegal | groupDone | lastGroupDone | noSpace | pushedBack | more | noMore | room | full
      | unlatchPadding | unlatchSwitch | marked | unmarked | modeThenFlush | modeThenHalt =>
    exact State.pendingOk_of_not_holds rfl
  case inputEnd hr =>
    obtain ⟨hge, hhost⟩ := hostTake_of_none hf hr
    have htaken' : (s.hostTake.goto .eCnt).pendingTaken := by
      simpa [State.pendingTaken, hhost] using htaken rfl
    exact State.pendingOk_of_inputEnd htaken' fun _ => by
      simpa [Phase.serve, hhost] using Nat.le_antisymm hw hge
  case accepted c he hr hn | fourth c he hr hn =>
    obtain ⟨hat, hhost⟩ := hostTake_of_some hf hr
    exact State.pendingOk_of_taken ((htaken rfl).push hc hat he (by simp [Phase.serve])
      (by simp [Phase.serve]) hhost) rfl
  case nextCodeword hi hf =>
    rcases hf with rfl | rfl
    · exact State.pendingOk_of_taken (htaken rfl) rfl
    · exact State.pendingOk_of_not_holds rfl
  case switch | stay => exact State.pendingOk_of_cnt hc
  case fewLeft | notFewLeft | shortTail | longTail | tailFits | tailDeclined =>
    exact State.pendingOk_of_inputEnd (htaken rfl) (hend rfl)

theorem serve_wf {s : State} (p : Phase) (h : Memory.wf s.host) : Memory.wf (p.serve s).host := by
  cases p
  case lTake => exact hostTake_wf h
  case ePb => exact hostPushback_wf _ h
  all_goals exact h

theorem serve_forced {s : State} (p : Phase) (h : s.forced = []) : (p.serve s).forced = [] := by
  cases p <;> simp [Phase.serve, h]

/-- What the host does next to its own state leaves its cursor within the input (H7, L3). -/
theorem nextSample_wf {s : State} {a : HostCtx} (h : scheduleOk s.inputs)
    (ha : s.nextSample.hostAct = some a) : Memory.wf a := by
  cases hin : s.inputs with
  | nil => simp [State.nextSample, hin] at ha
  | cons x l => exact h x (by simp [hin]) a (by simpa [State.nextSample, hin] using ha)

theorem sample_wf {s : State} (hw : Memory.wf s.host) (hi : scheduleOk s.inputs) :
    Memory.wf s.sample.host := by
  simp only [State.sample]
  split
  · exact hw
  · cases ha : s.nextSample.hostAct with
    | none => exact hw
    | some a => exact nextSample_wf hi ha

/-- Sampling takes over a host state of the schedule only between runs, where no cell holds a
character. -/
theorem sample_hostInv {s : State} (h : s.HostInv) : s.sample.HostInv := by
  obtain ⟨hf, hw, hp, hi⟩ := h
  refine ⟨hf, sample_wf hw hi, ?_, fun x hx => hi x (List.mem_of_mem_tail hx)⟩
  cases hb : s.ph.busy
  · exact State.pendingOk_of_not_holds (Phase.holdsCharacters_of_resting hb)
  · unfold State.pendingOk
    rwa [State.sample_host_of_busy hb]

theorem update_hostInv {s : State} (hc : s.ControlInv) (h : s.HostInv) :
    (s.ph.update (s.ph.serve s)).HostInv := by
  obtain ⟨-, hcnt, -, -⟩ := hc
  obtain ⟨hf, hw, hp, hi⟩ := h
  have hu := s.ph.updated (s.ph.serve s)
  obtain ⟨⟨-, -, hin, -⟩, hhost, -, hforced, -⟩ := hu.sameSurroundings
  obtain ⟨-, -, hin', -⟩ := s.ph.sameOutside_serve s
  exact ⟨hforced.trans (serve_forced _ hf), hhost ▸ serve_wf _ hw,
    hu.pendingOk rfl hcnt hf hw hp, by rwa [hin, hin']⟩

end Sys2Proof.Machine

namespace Sys2Proof.Proofs

open Sys2Proof.Machine

/-- Settles O46: sampling keeps the invariant, a reset and a start leave no pending cell, and in a
run the service keeps the host in order and the update the pending cells. -/
theorem stepKeepsTheHostInvariant : Obligations.StepKeepsTheHostInvariant := by
  intro s t hc h hs
  have hs1 := sample_hostInv h
  obtain ⟨hf, hw, -, hi⟩ := hs1
  rcases step_next_cases hc.1 hs with ⟨-, rfl⟩ | rfl | ⟨-, rfl⟩ | ⟨-, rfl⟩
  · exact ⟨hf, hw, State.pendingOk_of_cnt rfl, hi⟩
  · exact sample_hostInv h
  · exact ⟨hf, hw, State.pendingOk_of_cnt rfl, hi⟩
  · exact update_hostInv (sample_controlInv hc) (sample_hostInv h)

end Sys2Proof.Proofs
end

section
/-! The bits of the output (R54, R55, R58): a group of codewords, most significant bit first, is the
string of the values supplied, with the zero fill behind it. -/

namespace Sys2Proof.Machine

theorem msbFirst_length {w : Nat} (x : BitVec w) : (msbFirst x).length = w := by
  simp [msbFirst]

theorem msbFirst_append {m n : Nat} (x : BitVec m) (y : BitVec n) :
    msbFirst (x ++ y) = msbFirst x ++ msbFirst y := by
  simp only [msbFirst, List.range_add, List.map_append, List.map_map]
  congr 1
  · refine List.map_congr_left fun i hi => ?_
    have : ¬m ≤ i := by simpa using hi
    simp [BitVec.getMsbD_append, this]
  · refine List.map_congr_left fun i hi => ?_
    simp [BitVec.getMsbD_append]

theorem codewordBits_append (l l' : List Byte) :
    codewordBits (l ++ l') = codewordBits l ++ codewordBits l' :=
  List.flatMap_append

theorem valueBits_append (l l' : List Value) :
    valueBits (l ++ l') = valueBits l ++ valueBits l' :=
  List.flatMap_append

theorem codewordBits_take (l : List Byte) (n : Nat) :
    codewordBits (l.take n) = (codewordBits l).take (8 * n) := by
  induction l generalizing n with
  | nil => simp [codewordBits]
  | cons c l ih =>
    cases n with
    | zero => simp [codewordBits]
    | succ n =>
      have h8 : 8 * (n + 1) = (msbFirst c).length + 8 * n := by rw [msbFirst_length]; omega
      rw [h8, List.take_succ_cons]
      simp only [codewordBits, List.flatMap_cons, List.take_length_add_append]
      exact congrArg _ (ih n)

theorem valueBits_length (l : List Value) : (valueBits l).length = 6 * l.length := by
  simp [valueBits, msbFirst_length, mul_comm]

theorem valueBits_zeros (n : Nat) :
    valueBits (List.replicate n 0) = List.replicate (6 * n) false := by
  induction n with
  | zero => rfl
  | succ n ih =>
    rw [List.replicate_succ, mul_add_one, add_comm, List.replicate_add, ← ih]
    rfl

/-- The three layouts (R85 to R87) carry the bits of their four values in order. -/
theorem codewordBits_layouts (v0 v1 v2 v3 : Value) :
    codewordBits [layout0 v0 v1, layout1 v1 v2, layout2 v2 v3] = valueBits [v0, v1, v2, v3] := by
  have hv1 : msbFirst v1 = msbFirst (v1.extractLsb' 4 2) ++ msbFirst (v1.extractLsb' 0 4) := by
    revert v1; decide
  have hv2 : msbFirst v2 = msbFirst (v2.extractLsb' 2 4) ++ msbFirst (v2.extractLsb' 0 2) := by
    revert v2; decide
  have hl0 : msbFirst (layout0 v0 v1) = _ := msbFirst_append v0 (v1.extractLsb' 4 2)
  have hl1 : msbFirst (layout1 v1 v2) = _ :=
    msbFirst_append (v1.extractLsb' 0 4) (v2.extractLsb' 2 4)
  have hl2 : msbFirst (layout2 v2 v3) = _ := msbFirst_append (v2.extractLsb' 0 2) v3
  simp [codewordBits, valueBits, hl0, hl1, hl2, hv1, hv2]

/-- The values supplied are those of the pending characters, then zeros (R120). -/
theorem Buf.vals_eq (b : Buf) {k : Nat} (hk : k ≤ 4) :
    [b.val 0 k, b.val 1 k, b.val 2 k, b.val 3 k] =
      (b.pending k).map valueOf ++ List.replicate (4 - k) 0 := by
  interval_cases k <;> rfl

/-- The first `n` codewords of a group of `k` cells. -/
def Buf.codewords (b : Buf) (k n : Nat) : List Byte := (List.range n).map fun i => b.cw i k

theorem Buf.codewords_zero (b : Buf) (k : Nat) : b.codewords k 0 = [] := rfl

theorem Buf.codewords_succ (b : Buf) (k n : Nat) :
    b.codewords k (n + 1) = b.codewords k n ++ [b.cw n k] := by
  simp [Buf.codewords, List.range_succ]

theorem Buf.codewords_three_take (b : Buf) (k : Nat) {n : Nat} (hn : n ≤ 3) :
    (b.codewords k 3).take n = b.codewords k n := by
  rw [Buf.codewords, ← List.map_take, List.take_range, min_eq_left hn, Buf.codewords]

/-- A whole group is the bits of its values, then fewer than 8 zero bits (R55, R58, R126). -/
theorem codewordBits_group (b : Buf) {k : Nat} (h1 : 1 ≤ k) (h4 : k ≤ 4) :
    ∃ fill, fill < 8 ∧ (k = 4 → fill = 0) ∧ codewordBits (b.codewords k (ncw k)) =
      valueBits ((b.pending k).map valueOf) ++ List.replicate fill false := by
  have hfull : codewordBits (b.codewords k 3) =
      valueBits ((b.pending k).map valueOf) ++ List.replicate (6 * (4 - k)) false := by
    rw [← valueBits_zeros, ← valueBits_append, ← b.vals_eq h4, ← codewordBits_layouts]
    rfl
  have hlen : (valueBits ((b.pending k).map valueOf)).length = 6 * k := by
    simp [valueBits_length, Buf.pending, Buf.cells, h4]
  have hncw : ncw k ≤ 3 := Nat.min_le_right ..
  have hn : 8 * ncw k = 6 * k + (8 * ncw k - 6 * k) := by simp only [ncw]; omega
  refine ⟨8 * ncw k - 6 * k, by simp only [ncw]; omega, by rintro rfl; rfl, ?_⟩
  rw [← b.codewords_three_take k hncw, codewordBits_take, hfull, hn, ← hlen,
    List.take_length_add_append, List.take_replicate]
  congr 2
  simp only [ncw, hlen]; omega

end Sys2Proof.Machine
end

section
/-! What a run has written so far (R55, R58, R147, R195), and the settling of O60: at every step the
payload of the run, the values of the characters consumed and the marker, is what whole groups have
written followed by the pending values, of which a flush phase has emitted the first codewords. -/

namespace Sys2Proof.Machine

/-! ### The account of a run -/

/-- The phases that emit a group. -/
def Phase.flushes : Phase → Bool
  | .lFlush => true
  | .eFlush => true
  | _ => false

/-- The codewords already emitted of the group being flushed. -/
def State.groupSent (s : State) : List Byte :=
  if s.ph.flushes then s.buf.codewords s.cnt.toNat s.eidx.toNat else []

/-- The values of the pending cells (R22, R82). -/
def State.pendingValues (s : State) : List Value := (s.buf.pending s.cnt.toNat).map valueOf

/-- The values a run that began with the host `h` has to write: those of the characters consumed,
then the marker if it is set (R55, R30). -/
def State.payload (h : HostCtx) (s : State) : List Value :=
  (h.charsBetween h.pos s.host.pos).map valueOf ++ if s.unl then [31] else []

/-- The account of a run that began with the host `h`: whole groups have written the values `done`
as the codewords `sent`, with `fill` zero bits behind them once the last one is out. -/
structure State.PackedAs (h : HostCtx) (s : State) (done : List Value) (sent : List Byte)
    (fill : Nat) : Prop where
  inp : s.host.inp = h.inp
  pos : h.pos ≤ s.host.pos
  out : s.host.out = h.out ++ sent ++ s.groupSent
  bits : codewordBits sent = valueBits done ++ List.replicate fill false
  payload : s.payload h = done ++ s.pendingValues
  fill_lt : fill < 8
  fill_last : fill = 0 ∨ s.cnt = 0 ∧ (s.ph = .eMode ∨ s.ph = .halt)

/-- Some account holds. -/
def State.Packed (h : HostCtx) (s : State) : Prop := ∃ done sent fill, s.PackedAs h done sent fill

theorem State.groupSent_of_not_flushes {s : State} (h : s.ph.flushes = false) :
    s.groupSent = [] := by
  simp [State.groupSent, h]

theorem State.groupSent_of_eidx {s : State} (h : s.eidx = 0) : s.groupSent = [] := by
  simp [State.groupSent, h, Buf.codewords_zero]

theorem State.pendingValues_of_cnt {s : State} (h : s.cnt = 0) : s.pendingValues = [] := by
  simp [State.pendingValues, h, Buf.pending]

theorem State.pendingValues_push {s : State} (c : Byte) (h : s.cnt.toNat ≤ 3) :
    (s.push c).pendingValues = s.pendingValues ++ [valueOf c] := by
  rw [State.pendingValues, State.push_pending c h, List.map_append]
  rfl

theorem HostCtx.charsBetween_succ {h : HostCtx} {p q : Nat} {c : Byte} (hpq : p ≤ q)
    (hc : h.inp[q]? = some c) : h.charsBetween p (q + 1) = h.charsBetween p q ++ [c] := by
  have hat : h.inp[p + (q - p)]? = some c := by rwa [Nat.add_sub_cancel' hpq]
  unfold HostCtx.charsBetween
  rw [Nat.succ_sub hpq, take_succ_drop hat]

theorem HostCtx.charsBetween_length {h : HostCtx} {p q : Nat} (hq : q ≤ h.inp.length) :
    (h.charsBetween p q).length = q - p := by
  simp only [HostCtx.charsBetween, List.length_take, List.length_drop]
  omega

theorem HostCtx.charsBetween_take {h : HostCtx} {p q q' : Nat} (hq : q' ≤ q) :
    (h.charsBetween p q).take (q' - p) = h.charsBetween p q' := by
  rw [HostCtx.charsBetween, List.take_take, min_eq_left (by omega), HostCtx.charsBetween]

/-! ### What keeps the account -/

section

variable {h : HostCtx} {s t : State} {done : List Value} {sent : List Byte} {fill : Nat}

/-- The parts of the state that the account speaks of, but for the group being flushed. -/
def State.accounted (s : State) : List Byte × Nat × List Byte × Buf × BitVec 3 × Bool :=
  (s.host.inp, s.host.pos, s.host.out, s.buf, s.cnt, s.unl)

theorem State.PackedAs.fill_eq (hk : s.PackedAs h done sent fill)
    (hp : s.cnt ≠ 0 ∨ s.ph ≠ .eMode ∧ s.ph ≠ .halt) : fill = 0 := by
  have := hk.fill_last
  tauto

/-- A step that moves no data between the parts. -/
theorem State.PackedAs.keep (hk : s.PackedAs h done sent fill) (hs : s.groupSent = [])
    (ht : t.groupSent = []) (hd : t.accounted = s.accounted)
    (hfill : fill = 0 ∨ t.cnt = 0 ∧ (t.ph = .eMode ∨ t.ph = .halt)) : t.Packed h := by
  simp only [State.accounted, Prod.mk.injEq] at hd
  obtain ⟨hinp, hpos, hout, hbuf, hcnt, hunl⟩ := hd
  refine ⟨done, sent, fill, hinp ▸ hk.inp, hpos ▸ hk.pos, ?_, hk.bits, ?_, hk.fill_lt, hfill⟩
  · rw [hout, hk.out, hs, ht]
  · simpa [State.payload, State.pendingValues, hpos, hunl, hbuf, hcnt] using hk.payload

/-- A byte pushed whose value joins the payload. -/
theorem State.PackedAs.push (hk : s.PackedAs h done sent fill) {c : Byte} (hs : s.groupSent = [])
    (ht : t.groupSent = []) (hn : s.cnt.toNat ≤ 3) (hfill : fill = 0)
    (hinp : t.host.inp = s.host.inp) (hpos : s.host.pos ≤ t.host.pos)
    (hout : t.host.out = s.host.out) (hbuf : t.buf = (s.push c).buf) (hcnt : t.cnt = (s.push c).cnt)
    (hpay : t.payload h = s.payload h ++ [valueOf c]) : t.Packed h := by
  refine ⟨done, sent, fill, hinp.trans hk.inp, hk.pos.trans hpos, ?_, hk.bits, ?_, hk.fill_lt,
    .inl hfill⟩
  · rw [hout, hk.out, hs, ht]
  · have hpend : t.pendingValues = s.pendingValues ++ [valueOf c] := by
      rw [← State.pendingValues_push c hn, State.pendingValues, hbuf, hcnt, State.pendingValues]
    rw [hpay, hk.payload, hpend, List.append_assoc]

/-- A character taken is consumed and pending (R142). -/
theorem State.PackedAs.take (hk : s.PackedAs h done sent fill) {c : Byte} (hs : s.groupSent = [])
    (ht : t.groupSent = []) (hn : s.cnt.toNat ≤ 3) (hc : s.host.inp[s.host.pos]? = some c)
    (hunl : s.unl = false) (hfill : fill = 0)
    (hd : t.accounted = (s.host.inp, s.host.pos + 1, s.host.out, (s.push c).buf, (s.push c).cnt,
      s.unl)) : t.Packed h := by
  simp only [State.accounted, Prod.mk.injEq] at hd
  obtain ⟨hinp, hpos, hout, hbuf, hcnt, hunl'⟩ := hd
  rw [hk.inp] at hc
  refine hk.push hs ht hn hfill hinp (by omega) hout hbuf hcnt ?_
  simp [State.payload, hunl', hunl, hpos, HostCtx.charsBetween_succ hk.pos hc]

/-- The marker appended to the pending characters (R169). -/
theorem State.PackedAs.mark (hk : s.PackedAs h done sent fill) (hs : s.groupSent = [])
    (ht : t.groupSent = []) (hn : s.cnt.toNat ≤ 3) (hunl : s.unl = false) (hfill : fill = 0)
    (hd : t.accounted = (s.host.inp, s.host.pos, s.host.out, (s.push unlatchByte).buf,
      (s.push unlatchByte).cnt, true)) : t.Packed h := by
  simp only [State.accounted, Prod.mk.injEq] at hd
  obtain ⟨hinp, hpos, hout, hbuf, hcnt, hunl'⟩ := hd
  have hmarker : valueOf unlatchByte = 31 := by decide
  refine hk.push hs ht hn hfill hinp hpos.ge hout hbuf hcnt ?_
  simp [State.payload, hunl', hunl, hpos, hmarker]

/-- The marker emitted as a codeword of its own (R167, R168). -/
theorem State.PackedAs.unlatch (hk : s.PackedAs h done sent fill) (hs : s.groupSent = [])
    (hcnt : s.cnt = 0) (hunl : s.unl = false) (hfill : fill = 0)
    (hph : t.ph = .eMode ∨ t.ph = .halt)
    (hd : t.accounted = (s.host.inp, s.host.pos, s.host.out ++ [unlatchCodeword], s.buf, 0, true)) :
    t.Packed h := by
  simp only [State.accounted, Prod.mk.injEq] at hd
  obtain ⟨hinp, hpos, hout, -, hcnt', hunl'⟩ := hd
  have ht : t.groupSent = [] :=
    State.groupSent_of_not_flushes (by rcases hph with h | h <;> rw [h] <;> rfl)
  have hpay := hk.payload
  have hbits := hk.bits
  have hmarker : codewordBits [unlatchCodeword] = valueBits [31] ++ List.replicate 2 false := by
    decide
  simp only [State.payload, hunl, State.pendingValues_of_cnt hcnt] at hpay
  refine ⟨done ++ [31], sent ++ [unlatchCodeword], 2, hinp ▸ hk.inp, hpos ▸ hk.pos, ?_, ?_, ?_,
    by decide, .inr ⟨hcnt', hph⟩⟩
  · simp [hout, hk.out, hs, ht]
  · simp [codewordBits_append, valueBits_append, hbits, hfill, hmarker]
  · rw [State.pendingValues_of_cnt hcnt', List.append_nil, ← List.append_nil done, ← hpay]
    simp [State.payload, hunl', hpos]

/-- Before the marker, what was consumed is what is written and what is pending. -/
theorem State.PackedAs.pos_eq (hk : s.PackedAs h done sent fill) (hn : s.cnt.toNat ≤ 3)
    (hw : Memory.wf s.host) (hunl : s.unl = false) :
    s.host.pos = h.pos + done.length + s.cnt.toNat := by
  have hlen := congrArg List.length hk.payload
  have hle := hk.pos
  have hw' : s.host.pos ≤ h.inp.length := by rw [← hk.inp]; exact hw
  simp [State.payload, hunl, HostCtx.charsBetween_length hw', State.pendingValues, Buf.pending,
    Buf.cells] at hlen
  omega

/-- The pending characters given back are no longer consumed (R164, R195). -/
theorem State.PackedAs.giveBack (hk : s.PackedAs h done sent fill) (hs : s.groupSent = [])
    (ht : t.groupSent = []) (hn : s.cnt.toNat ≤ 3) (hw : Memory.wf s.host) (hunl : s.unl = false)
    (hfill : fill = 0) (hd : t.accounted = (s.host.inp, s.host.pos - s.cnt.toNat, s.host.out, s.buf,
      0, s.unl)) : t.Packed h := by
  simp only [State.accounted, Prod.mk.injEq] at hd
  obtain ⟨hinp, hpos, hout, -, hcnt, hunl'⟩ := hd
  have hpay : (h.charsBetween h.pos s.host.pos).map valueOf = done ++ s.pendingValues := by
    simpa [State.payload, hunl] using hk.payload
  have hlen := hk.pos_eq hn hw hunl
  have hdone : s.host.pos - s.cnt.toNat - h.pos = done.length := by omega
  refine ⟨done, sent, fill, hinp ▸ hk.inp, by omega, ?_, hk.bits, ?_, hk.fill_lt, .inl hfill⟩
  · rw [hout, hk.out, hs, ht]
  · rw [State.pendingValues_of_cnt hcnt, State.payload, hunl', hunl, hpos,
      ← HostCtx.charsBetween_take (Nat.sub_le s.host.pos s.cnt.toNat), hdone, List.map_take, hpay]
    simp

/-- A codeword emitted that is not the last of its group (R144, R171). -/
theorem State.PackedAs.nextCodeword (hk : s.PackedAs h done sent fill)
    (hs : s.ph.flushes = true) (ht : t.ph.flushes = true) (hi : s.eidx.toNat ≤ 2) (hfill : fill = 0)
    (heidx : t.eidx = s.eidx + 1) (hd : t.accounted = (s.host.inp, s.host.pos,
      s.host.out ++ [s.buf.cw s.eidx.toNat s.cnt.toNat], s.buf, s.cnt, s.unl)) : t.Packed h := by
  simp only [State.accounted, Prod.mk.injEq] at hd
  obtain ⟨hinp, hpos, hout, hbuf, hcnt, hunl⟩ := hd
  have hsent : t.groupSent = s.groupSent ++ [s.buf.cw s.eidx.toNat s.cnt.toNat] := by
    have he : t.eidx.toNat = s.eidx.toNat + 1 := by bv_omega
    simp [State.groupSent, hs, ht, hbuf, hcnt, he, Buf.codewords_succ]
  refine ⟨done, sent, fill, hinp ▸ hk.inp, hpos ▸ hk.pos, ?_, hk.bits, ?_, hk.fill_lt, .inl hfill⟩
  · rw [hout, hk.out, hsent, List.append_assoc _ s.groupSent]
  · simpa [State.payload, State.pendingValues, hpos, hunl, hbuf, hcnt] using hk.payload

/-- The last codeword of a group writes the pending values (R55, R58, R144, R171). -/
theorem State.PackedAs.groupDone (hk : s.PackedAs h done sent fill)
    (hs : s.ph.flushes = true) (hn : 1 ≤ s.cnt.toNat ∧ s.cnt.toNat ≤ 4)
    (hi : s.eidx.toNat = ncw s.cnt.toNat - 1) (hfill : fill = 0) (ht : t.groupSent = [])
    (hlast : s.cnt = 4 ∨ t.ph = .halt)
    (hd : t.accounted = (s.host.inp, s.host.pos,
      s.host.out ++ [s.buf.cw s.eidx.toNat s.cnt.toNat], s.buf, 0, s.unl)) : t.Packed h := by
  simp only [State.accounted, Prod.mk.injEq] at hd
  obtain ⟨hinp, hpos, hout, -, hcnt, hunl⟩ := hd
  obtain ⟨fill', hlt, hfour, hbits⟩ := codewordBits_group s.buf hn.1 hn.2
  have hgroup : s.groupSent ++ [s.buf.cw s.eidx.toNat s.cnt.toNat] =
      s.buf.codewords s.cnt.toNat (ncw s.cnt.toNat) := by
    have he : ncw s.cnt.toNat = s.eidx.toNat + 1 := by simp only [ncw] at hi ⊢; omega
    rw [State.groupSent, if_pos hs, he, Buf.codewords_succ]
  refine ⟨done ++ s.pendingValues, sent ++ s.buf.codewords s.cnt.toNat (ncw s.cnt.toNat), fill',
    hinp ▸ hk.inp, hpos ▸ hk.pos, ?_, ?_, ?_, hlt, ?_⟩
  · rw [hout, hk.out, ht, ← hgroup]
    simp
  · have hsent := hk.bits
    simp [codewordBits_append, valueBits_append, hsent, hfill, hbits, State.pendingValues]
  · rw [State.pendingValues_of_cnt hcnt, List.append_nil, ← hk.payload]
    simp [State.payload, hpos, hunl]
  · rcases hlast with h4 | hph
    · exact .inl (hfour (by simp [h4]))
    · exact .inr ⟨hcnt, .inr hph⟩

end

/-! ### A step -/

theorem decline_not_flushes (n : BitVec 3) : (decline n).flushes = false := by
  rcases decline_eq n with ⟨hd, -⟩ | ⟨hd, -⟩ <;> simp [hd, Phase.flushes]

/-- Before the marker can be written `UNL` is 0 (R30). -/
theorem Engine.unl_of_flagsOk {e : Engine} (h : e.flagsOk)
    (hp : e.ph ≠ .eMode ∧ e.ph ≠ .eFlush ∧ e.ph ≠ .halt) : e.unl = false := by
  cases hph : e.ph <;> simp_all [Engine.flagsOk]

/-- Each outcome of an update keeps the account, or ends the run in a fault. -/
theorem Phase.Updated.packed {h : HostCtx} {p : Phase} {s t : State} (hu : p.Updated (p.serve s) t)
    (hb : p.busy = true) (hp : s.ph = p) (hc : s.ControlInv) (hf : s.forced = [])
    (hw : Memory.wf s.host) (hk : s.Packed h) : t.faulted ∨ t.Packed h := by
  obtain ⟨done, sent, fill, hk⟩ := hk
  obtain ⟨-, hcnt, ⟨hidx, -⟩, hflags⟩ := hc
  have hunl : p ≠ .eMode ∧ p ≠ .eFlush ∧ p ≠ .halt → s.unl = false := fun h =>
    Engine.unl_of_flagsOk hflags (hp ▸ h)
  have hfill : s.cnt ≠ 0 ∨ p ≠ .eMode ∧ p ≠ .halt → fill = 0 := fun h => hk.fill_eq (hp ▸ h)
  have hquiet : p.flushes = false → s.groupSent = [] := fun h =>
    State.groupSent_of_not_flushes (hp ▸ h)
  cases hu <;> simp only [Engine.countOk, hp] at hcnt
  case resting hr => simp [hr] at hb
  case illegal => exact .inl ⟨rfl, .inl rfl⟩
  case noSpace => exact .inl ⟨rfl, .inr rfl⟩
  all_goals right
  case inputEnd hr =>
    obtain ⟨-, hhost⟩ := hostTake_of_none hf hr
    exact hk.keep (hquiet rfl) rfl (by simp [State.accounted, Phase.serve, hhost])
      (.inl (hfill (by simp)))
  case accepted c he hr hn | fourth c he hr hn =>
    obtain ⟨hat, hhost⟩ := hostTake_of_some hf hr
    exact hk.take (hquiet rfl) rfl hcnt hat (hunl (by simp)) (hfill (by simp))
      (by simp [State.accounted, Phase.serve, hhost])
  case nextCodeword hi hf =>
    rcases hf with rfl | rfl <;>
      exact hk.nextCodeword (by rw [hp]; rfl) rfl hidx (hfill (by simp)) rfl rfl
  case groupDone hi =>
    exact hk.groupDone (by rw [hp]; rfl) (by simp [hcnt]) hi (hfill (by simp)) rfl (.inl hcnt) rfl
  case lastGroupDone hi =>
    exact hk.groupDone (by rw [hp]; rfl) hcnt hi (hfill (by simp)) rfl (.inr rfl) rfl
  case switch | stay | fewLeft | shortTail | tailFits | more | noMore | room | unmarked =>
    exact hk.keep (hquiet rfl) rfl rfl (.inl (hfill (by simp)))
  case notFewLeft | longTail | tailDeclined =>
    exact hk.keep (hquiet rfl) (State.groupSent_of_not_flushes (decline_not_flushes _)) rfl
      (.inl (hfill (by simp)))
  case pushedBack =>
    have hle : s.cnt.toNat ≤ s.host.pos := by have := hk.pos_eq hcnt hw (hunl (by simp)); omega
    exact hk.giveBack (hquiet rfl) rfl hcnt hw (hunl (by simp)) (hfill (by simp))
      (by simp [State.accounted, Phase.serve, posAfterPushback_of_taken _ hle])
  case full =>
    exact hk.keep (hquiet rfl) rfl (by simp [State.accounted, Phase.serve, hcnt])
      (.inl (hfill (by simp)))
  case unlatchPadding =>
    exact hk.unlatch (hquiet rfl) hcnt (hunl (by simp)) (hfill (by simp)) (.inl rfl)
      (by simp [State.accounted, Phase.serve, hcnt])
  case unlatchSwitch =>
    exact hk.unlatch (hquiet rfl) hcnt (hunl (by simp)) (hfill (by simp)) (.inr rfl) rfl
  case marked =>
    exact hk.mark (hquiet rfl) rfl hcnt.2 (hunl (by simp)) (hfill (by simp)) rfl
  case modeThenFlush hn =>
    have h0 : s.cnt ≠ 0 := by rintro h0; simp [h0] at hn
    exact hk.keep (hquiet rfl) rfl rfl (.inl (hfill (.inl h0)))
  case modeThenHalt hn =>
    rw [Phase.serve_toEngine] at hn
    exact hk.keep (hquiet rfl) rfl (by simp [State.accounted, Phase.serve, hn])
      (.inr ⟨rfl, .inr rfl⟩)

/-- With no input scheduled the pins are quiet and the host does not act between runs (log entry
1). -/
theorem sample_of_inputs_nil {s : State} (h : s.inputs = []) :
    s.sample = { s with pins := Pins.quiet } := by
  simp [State.sample, State.nextSample, h]

/-- The account speaks of the engine and the host alone. -/
theorem State.Packed.sample {h : HostCtx} {s : State} (hi : s.inputs = []) (hk : s.Packed h) :
    s.sample.Packed h := by
  obtain ⟨done, sent, fill, hinp, hpos, hout, hbits, hpay, hlt, hlast⟩ := hk
  rw [sample_of_inputs_nil hi]
  exact ⟨done, sent, fill, hinp, hpos, hout, hbits, hpay, hlt, hlast⟩

/-- With no input scheduled a step is that of the busy phase, or nothing but the sampling. -/
theorem step_next_of_inputs_nil {s t : State} (hp : s.presented = []) (hi : s.inputs = [])
    (h : step s = .next t) :
    s.ph.busy = false ∧ t = s.sample ∨
      s.ph.busy = true ∧ t = s.ph.update (s.ph.serve s.sample) := by
  have hn : s.nextSample.pins = Pins.quiet := by simp [State.nextSample, hi]
  rw [step_of_presented_nil hp, hn] at h
  cases hb : s.ph.busy
  · exact .inl ⟨rfl, by simpa [hb, Pins.quiet] using h.symm⟩
  · simp only [hb, Pins.quiet, Bool.false_eq_true, if_false, if_true] at h
    exact .inr ⟨rfl, (checked_next.mp h).2.symm⟩

/-! ### A run -/

/-- What a run that began with the host `h` keeps, with no input scheduled. -/
def State.PackedRun (h : HostCtx) (s : State) : Prop :=
  s.ControlInv ∧ s.HostInv ∧ s.inputs = [] ∧ (s.faulted ∨ s.Packed h)

theorem step_packedRun {h : HostCtx} {s t : State} (hr : s.PackedRun h) (hs : step s = .next t) :
    t.PackedRun h := by
  obtain ⟨hc, hh, hi, hk⟩ := hr
  have hc' := Proofs.stepKeepsTheControlInvariant s t hc hs
  have hh' := Proofs.stepKeepsTheHostInvariant s t hc hh hs
  refine ⟨hc', hh', ?_⟩
  rcases step_next_of_inputs_nil hc.1 hi hs with ⟨-, rfl⟩ | ⟨hb, rfl⟩
  · exact ⟨by simp [hi], hk.imp_right (·.sample hi)⟩
  · obtain ⟨hf, hw, -, -⟩ := sample_hostInv hh
    have hk : s.Packed h := hk.resolve_left fun hfault => by simp [hfault.1, Phase.busy] at hb
    have hu := s.ph.updated (s.ph.serve s.sample)
    obtain ⟨⟨-, -, hin, -⟩, -⟩ := hu.sameSurroundings
    obtain ⟨-, -, hin', -⟩ := s.ph.sameOutside_serve s.sample
    exact ⟨by simp [hin, hin', hi], hu.packed hb rfl (sample_controlInv hc) hf hw (hk.sample hi)⟩

/-- A property that every step keeps holds at the end of every run. -/
theorem run_keeps {I : State → Prop} (hI : ∀ s t, I s → step s = .next t → I t) (n : Nat)
    {s t : State} (hs : I s) (h : Host.Core.run core n s = .next t) : I t := by
  induction n generalizing s with
  | zero =>
    obtain rfl : s = t := Host.Outcome.next.inj h
    exact hs
  | succ n ih =>
    have hcore : core.step s = step s := rfl
    simp only [Host.Core.run, hcore] at h
    cases hstep : step s with
    | next u =>
      rw [hstep] at h
      exact ih (hI s u hs hstep) h
    | fault f => simp [hstep] at h
    | refused r => simp [hstep] at h

/-- A started run has written nothing. -/
theorem State.packed_of_started {s : State} (hp : s.ph = .lTake) (hn : s.cnt = 0)
    (hc : s.ControlInv) : s.Packed s.host := by
  obtain ⟨-, -, -, hflags⟩ := hc
  simp only [Engine.flagsOk, hp] at hflags
  refine ⟨[], [], 0, rfl, le_rfl, ?_, rfl, ?_, by decide, .inl rfl⟩
  · simp [State.groupSent, hp, Phase.flushes]
  · simp [State.payload, HostCtx.charsBetween, hflags, State.pendingValues_of_cnt hn]

end Sys2Proof.Machine

namespace Sys2Proof.Proofs

open Sys2Proof.Machine

/-- Settles O60: a started run has written nothing, every step keeps the account of the run, and at
a successful end nothing is pending, so that all of the payload has been written. -/
theorem successfulRunPacksItsInput : Obligations.SuccessfulRunPacksItsInput := by
  intro s t n hp hn hc hh hi hrun ht
  have hstart : s.PackedRun s.host := ⟨hc, hh, hi, .inr (State.packed_of_started hp hn hc)⟩
  obtain ⟨⟨-, hcnt, -⟩, -, -, hk⟩ := run_keeps (fun _ _ => step_packedRun) n hstart hrun
  obtain ⟨hph, hok⟩ := ht
  have hk := hk.resolve_left fun hf => by simp [State.faulted, hok] at hf
  obtain ⟨done, sent, fill, hinp, hpos, hout, hbits, hpay, hlt, -⟩ := hk
  simp only [Engine.countOk, hph] at hcnt
  rw [State.pendingValues_of_cnt hcnt, List.append_nil] at hpay
  refine ⟨sent, fill, hinp, hpos, ?_, hlt, ?_⟩
  · simpa [State.groupSent, hph, Phase.flushes] using hout
  · rwa [← hpay] at hbits

end Sys2Proof.Proofs
end

section
/-! The decoder undoes the encoder (`30_encoding.md` R80 to R95), and the settling of O2. One lemma
per channel takes the width check away; what is left is that the fields of a word are the operands
the encoder put there. -/

namespace Sys2Proof

/-! ### The fields of a word -/

/-- A word of `n` bits passes the width check of a channel of that width. -/
theorem not_tooWide {n : Nat} (hn : n ≤ 24) (x : BitVec n) : ¬2 ^ n ≤ (x.setWidth 24).toNat := by
  rw [BitVec.toNat_setWidth_of_le hn]
  exact Nat.not_le.mpr x.isLt

/-- Above a zero-extended operand the word is zero. -/
theorem extractLsb'_setWidth_high {n v m : Nat} (x : BitVec n) :
    (x.setWidth v).extractLsb' n m = 0 := by
  ext i hi
  simp

/-- The low field of a zero-extended operand is the operand. -/
theorem extractLsb'_setWidth_low {n v : Nat} (h : n ≤ v) (x : BitVec n) :
    (x.setWidth v).extractLsb' 0 n = x := by
  rw [BitVec.extractLsb'_setWidth_of_le (by omega), BitVec.extractLsb'_eq_self]

/-! ### One lemma per channel -/

theorem decode_phaseCode (code : BitVec 4) : decode (phaseWord code) = .ok (decodePhase code) := by
  refine (if_neg (not_tooWide (by decide) code)).trans ?_
  simp [phaseWord, extractLsb'_setWidth_low]

theorem decode_hcmd (x : BitVec 12) : decode ⟨.hcmd, x.setWidth 24⟩ = decodeHcmd x := by
  refine (if_neg (not_tooWide (by decide) x)).trans ?_
  simp [extractLsb'_setWidth_low]

theorem decode_charWord (c : Byte) : decode (charWord c) = .ok (decodeChar c) := by
  refine (if_neg (not_tooWide (by decide) c)).trans ?_
  simp [charWord, extractLsb'_setWidth_low]

theorem decode_cw0 (x : Byte) :
    decode ⟨.cw0, x.setWidth 24⟩ = .ok (.cw0 (x.extractLsb' 2 6) (x.extractLsb' 0 2)) := by
  refine (if_neg (not_tooWide (by decide) x)).trans ?_
  simp [BitVec.extractLsb'_setWidth_of_le]

theorem decode_cw1 (x : Byte) :
    decode ⟨.cw1, x.setWidth 24⟩ = .ok (.cw1 (x.extractLsb' 4 4) (x.extractLsb' 0 4)) := by
  refine (if_neg (not_tooWide (by decide) x)).trans ?_
  simp [BitVec.extractLsb'_setWidth_of_le]

theorem decode_cw2 (x : Byte) :
    decode ⟨.cw2, x.setWidth 24⟩ = .ok (.cw2 (x.extractLsb' 6 2) (x.extractLsb' 0 6)) := by
  refine (if_neg (not_tooWide (by decide) x)).trans ?_
  simp [BitVec.extractLsb'_setWidth_of_le]

theorem decode_pack4 (x : BitVec 24) :
    decode ⟨.pack4, x⟩ = .ok (.pack4 (x.extractLsb' 18 6) (x.extractLsb' 12 6) (x.extractLsb' 6 6)
      (x.extractLsb' 0 6)) :=
  if_neg (Nat.not_le.mpr x.isLt)

theorem decode_pack3 (x : BitVec 24) :
    decode ⟨.pack3, x⟩ = accept (x.extractLsb' 0 6 == 0) .fillNotZero
      (.pack3 (x.extractLsb' 18 6) (x.extractLsb' 12 6) (x.extractLsb' 6 6)) :=
  if_neg (Nat.not_le.mpr x.isLt)

theorem decode_pack2 (x : BitVec 16) :
    decode ⟨.pack2, x.setWidth 24⟩ = accept (x.extractLsb' 0 4 == 0) .fillNotZero
      (.pack2 (x.extractLsb' 10 6) (x.extractLsb' 4 6)) := by
  refine (if_neg (not_tooWide (by decide) x)).trans ?_
  simp [BitVec.extractLsb'_setWidth_of_le]

theorem decode_pack1 (x : Byte) :
    decode ⟨.pack1, x.setWidth 24⟩ =
      accept (x.extractLsb' 0 2 == 0) .fillNotZero (.pack1 (x.extractLsb' 2 6)) := by
  refine (if_neg (not_tooWide (by decide) x)).trans ?_
  simp [BitVec.extractLsb'_setWidth_of_le]

/-! ### Operands -/

/-- An operand zero-extended to the argument of a command is accepted and read back (R92). -/
theorem accept_operand {n m : Nat} (hn : n ≤ 8) (e : DecodeError) (f : BitVec n → Instr)
    (x : BitVec n) :
    accept ((x.setWidth 8).extractLsb' n m == 0) e (f ((x.setWidth 8).extractLsb' 0 n)) =
      .ok (f x) := by
  rw [extractLsb'_setWidth_high, extractLsb'_setWidth_low hn, beq_self_eq_true]
  rfl

/-- A field above the last part of a word is a field of what stands before it. -/
theorem extractLsb'_append_above {m n : Nat} (x : BitVec m) (y : BitVec n) (k l : Nat) :
    (x ++ y).extractLsb' (k + n) l = x.extractLsb' k l := by
  rw [BitVec.extractLsb'_append_eq_of_le (Nat.le_add_left n k), Nat.add_sub_cancel]

/-- The three fields of a word of two values and a last part of `n` bits. -/
theorem packing_fields {n : Nat} (a b : Value) (z : BitVec n) :
    (a ++ b ++ z).extractLsb' (6 + n) 6 = a ∧ (a ++ b ++ z).extractLsb' (0 + n) 6 = b ∧
      (a ++ b ++ z).extractLsb' 0 n = z := by
  rw [extractLsb'_append_above, extractLsb'_append_above, BitVec.extractLsb'_append_eq_left,
    BitVec.extractLsb'_append_eq_right, BitVec.extractLsb'_append_eq_right]
  exact ⟨rfl, rfl, rfl⟩

/-- The four fields of a 24-bit packing form (R121). -/
theorem packing_fields4 (a b c d : Value) :
    (a ++ b ++ c ++ d).extractLsb' 18 6 = a ∧ (a ++ b ++ c ++ d).extractLsb' 12 6 = b ∧
      (a ++ b ++ c ++ d).extractLsb' 6 6 = c ∧ (a ++ b ++ c ++ d).extractLsb' 0 6 = d := by
  obtain ⟨ha, hb, hc⟩ := packing_fields a b c
  exact ⟨(extractLsb'_append_above _ d 12 6).trans ha, (extractLsb'_append_above _ d 6 6).trans hb,
    (extractLsb'_append_above _ d 0 6).trans hc, BitVec.extractLsb'_append_eq_right⟩

end Sys2Proof

namespace Sys2Proof.Proofs

open BitVec (extractLsb'_append_eq_left extractLsb'_append_eq_right)

/-- Settles O2, by the channel of the operation: the decoder of the channel gets the field the
encoder wrote, and reads the parts it was put together from. -/
theorem decodeOfEncodeIsIdentity : Obligations.DecodeOfEncodeIsIdentity := by
  intro i
  cases i
  case start | unlatchcw => decide
  case idle | lTake | lFlush | lSwq | eCnt | ePeek | eSpc1 | ePb | eMore | eSpc0 | eUnlp | eUnls
      | eSpck | eMode | eFlush | halt =>
    exact decode_phaseCode _
  case nop | take | count | peek | more | switchq => exact decode_hcmd _
  case pushback n | space n | setmode n =>
    refine (decode_hcmd _).trans ?_
    unfold decodeHcmd
    rw [extractLsb'_append_eq_left, extractLsb'_append_eq_right]
    exact accept_operand (by decide) _ _ n
  case emit | reserved10 | reserved11 | reserved12 | reserved13 | reserved14 | reserved15 =>
    refine (decode_hcmd _).trans ?_
    unfold decodeHcmd
    rw [extractLsb'_append_eq_left, extractLsb'_append_eq_right]
    rfl
  case chUnl | chB5E => exact decode_charWord _
  case chLow x | chA x | chB40 x | chB50 x | chB58 x | chB5C x | chHi1 x | chHi2 x =>
    rw [encode, decode_charWord]
    revert x
    decide
  case cw0 a b =>
    rw [encode, decode_cw0, extractLsb'_append_eq_left, extractLsb'_append_eq_right]
  case cw1 a b =>
    rw [encode, decode_cw1, extractLsb'_append_eq_left, extractLsb'_append_eq_right]
  case cw2 a b =>
    rw [encode, decode_cw2, extractLsb'_append_eq_left, extractLsb'_append_eq_right]
  case pack4 a b c d =>
    obtain ⟨ha, hb, hc, hd⟩ := packing_fields4 a b c d
    rw [encode, decode_pack4, ha, hb, hc, hd]
  case pack3 a b c =>
    obtain ⟨ha, hb, hc, hz⟩ := packing_fields4 a b c 0#6
    rw [encode, decode_pack3, ha, hb, hc, hz]
    rfl
  case pack2 a b =>
    obtain ⟨ha, hb, hz⟩ := packing_fields a b 0#4
    rw [encode, decode_pack2, ha, hb, hz]
    rfl
  case pack1 a =>
    rw [encode, decode_pack1, extractLsb'_append_eq_left, extractLsb'_append_eq_right]
    rfl

end Sys2Proof.Proofs
end

section
/-! Every word that decodes is the encoding of what it decodes to (`30_encoding.md` R80 to R95), and
the settling of O3: the width check makes a word the zero extension of its channel's field, and a
field is the concatenation of its own parts. -/

namespace Sys2Proof

theorem accept_eq_ok {ok : Bool} {e : DecodeError} {i j : Instr} :
    accept ok e i = .ok j ↔ ok = true ∧ i = j := by
  cases ok <;> simp [accept]

/-- A word that decodes passed the width check. -/
theorem decode_ok_fits {w : TableWord} {i : Instr} (h : decode w = .ok i) :
    ¬2 ^ w.fmt.width ≤ w.bits.toNat := by
  intro hw
  rw [decode, if_pos hw] at h
  cases h

/-- A word that decodes is the zero extension of its channel's field. -/
theorem decode_ok_setWidth {f : Fmt} {x : BitVec 24} {i : Instr} (h : decode ⟨f, x⟩ = .ok i) :
    ∃ y : BitVec f.width, x = y.setWidth 24 := by
  have hx : x.toNat < 2 ^ f.width := Nat.not_le.mp (decode_ok_fits h)
  refine ⟨x.setWidth f.width, BitVec.eq_of_toNat_eq ?_⟩
  rw [BitVec.toNat_setWidth, BitVec.toNat_setWidth, Nat.mod_eq_of_lt hx, Nat.mod_eq_of_lt x.isLt]

/-! ### The parts of a field -/

/-- An argument byte whose upper bits are zero is its zero-extended operand (R92). -/
theorem setWidth_extractLsb'_of_high_zero {n m : Nat} {arg : Byte} (hw : n + m = 8)
    (h : arg.extractLsb' n m = 0) : (arg.extractLsb' 0 n).setWidth 8 = arg := by
  ext i hi
  by_cases hin : i < n
  · simp [hin, BitVec.getLsbD_eq_getElem hi]
  · have hbit := congrArg (·.getLsbD (i - n)) h
    have hlt : i - n < m := by omega
    have hsum : n + (i - n) = i := by omega
    simpa [hin, hlt, hsum, hi] using hbit.symm

theorem encode_decodePhase : ∀ code : BitVec 4, encode (decodePhase code) = phaseWord code := by
  decide

theorem encode_decodeChar : ∀ c : Byte, encode (decodeChar c) = charWord c := by
  decide

/-- A command word that decodes is that of its operation (R91, R92). -/
theorem encode_of_decodeHcmd {x : BitVec 12} {i : Instr} (h : decodeHcmd x = .ok i) :
    encode i = ⟨.hcmd, x.setWidth 24⟩ := by
  have hx : x.extractLsb' 8 4 ++ x.extractLsb' 0 8 = x := BitVec.extractLsb'_append_extractLsb'
  suffices encode i = hcmdWord (x.extractLsb' 8 4) (x.extractLsb' 0 8) by
    rw [this, hcmdWord, hx]
  unfold decodeHcmd at h
  generalize x.extractLsb' 8 4 = op, x.extractLsb' 0 8 = arg at h ⊢
  have hop {k : Nat} (hk : op.toNat = k) : op = BitVec.ofNat 4 k := by rw [← hk]; simp
  simp only at h
  split at h
  case h_1 _ hk | h_2 _ hk | h_3 _ hk | h_4 _ hk | h_5 _ hk | h_10 _ hk =>
    obtain ⟨ha, rfl⟩ := accept_eq_ok.mp h
    rw [beq_iff_eq.mp ha, hop hk]
    rfl
  case h_6 _ hk | h_8 _ hk | h_9 _ hk =>
    obtain ⟨hz, rfl⟩ := accept_eq_ok.mp h
    rw [hop hk]
    exact congrArg (hcmdWord _) (setWidth_extractLsb'_of_high_zero rfl (beq_iff_eq.mp hz))
  case h_7 _ hk | h_11 _ hk | h_12 _ hk | h_13 _ hk | h_14 _ hk | h_15 _ hk =>
    obtain rfl := Except.ok.inj h
    rw [hop hk]
    rfl
  case h_16 =>
    obtain rfl := Except.ok.inj h
    have hk : op.toNat = 15 := by
      simp only [imp_false] at *
      omega
    rw [hop hk]
    rfl

/-- A 24-bit word is its four six-bit fields (R121). -/
theorem append_packing_fields4 (x : BitVec 24) :
    x.extractLsb' 18 6 ++ x.extractLsb' 12 6 ++ x.extractLsb' 6 6 ++ x.extractLsb' 0 6 = x := by
  have h12 : x.extractLsb' 18 6 ++ x.extractLsb' 12 6 = x.extractLsb' 12 12 :=
    BitVec.extractLsb'_append_extractLsb'_eq_extractLsb' rfl
  have h6 : x.extractLsb' 12 12 ++ x.extractLsb' 6 6 = x.extractLsb' 6 18 :=
    BitVec.extractLsb'_append_extractLsb'_eq_extractLsb' rfl
  rw [h12, h6]
  exact BitVec.extractLsb'_append_extractLsb'

/-- A 16-bit word is its two six-bit fields and the four bits below (R123). -/
theorem append_packing_fields2 (x : BitVec 16) :
    x.extractLsb' 10 6 ++ x.extractLsb' 4 6 ++ x.extractLsb' 0 4 = x := by
  have h4 : x.extractLsb' 10 6 ++ x.extractLsb' 4 6 = x.extractLsb' 4 12 :=
    BitVec.extractLsb'_append_extractLsb'_eq_extractLsb' rfl
  rw [h4]
  exact BitVec.extractLsb'_append_extractLsb'

end Sys2Proof

namespace Sys2Proof.Proofs

/-- Settles O3, by the channel of the word: the width check makes the word the extension of a
field, what the field decodes to is known, and its parts put together are the field again. -/
theorem decodedWordIsTheEncoding : Obligations.DecodedWordIsTheEncoding := by
  rintro ⟨f, x⟩ i h
  cases f
  case phase =>
    obtain ⟨code, rfl⟩ := decode_ok_setWidth h
    obtain rfl := Except.ok.inj ((decode_phaseCode code).symm.trans h)
    exact encode_decodePhase code
  case hcmd =>
    obtain ⟨y, rfl⟩ := decode_ok_setWidth h
    exact encode_of_decodeHcmd ((decode_hcmd y).symm.trans h)
  case char =>
    obtain ⟨c, rfl⟩ := decode_ok_setWidth h
    obtain rfl := Except.ok.inj ((decode_charWord c).symm.trans h)
    exact encode_decodeChar c
  case cw0 =>
    obtain ⟨y, rfl⟩ := decode_ok_setWidth h
    obtain rfl := Except.ok.inj ((decode_cw0 y).symm.trans h)
    exact congrArg (fun z : Byte => TableWord.mk .cw0 (z.setWidth 24))
      BitVec.extractLsb'_append_extractLsb'
  case cw1 =>
    obtain ⟨y, rfl⟩ := decode_ok_setWidth h
    obtain rfl := Except.ok.inj ((decode_cw1 y).symm.trans h)
    exact congrArg (fun z : Byte => TableWord.mk .cw1 (z.setWidth 24))
      BitVec.extractLsb'_append_extractLsb'
  case cw2 =>
    obtain ⟨y, rfl⟩ := decode_ok_setWidth h
    obtain rfl := Except.ok.inj ((decode_cw2 y).symm.trans h)
    exact congrArg (fun z : Byte => TableWord.mk .cw2 (z.setWidth 24))
      BitVec.extractLsb'_append_extractLsb'
  case pin =>
    obtain ⟨hx, rfl⟩ := accept_eq_ok.mp ((if_neg (decode_ok_fits h)).symm.trans h)
    exact congrArg (TableWord.mk .pin) (beq_iff_eq.mp hx).symm
  case unlatchCw =>
    obtain ⟨hx, rfl⟩ := accept_eq_ok.mp ((if_neg (decode_ok_fits h)).symm.trans h)
    exact congrArg (TableWord.mk .unlatchCw) (beq_iff_eq.mp hx).symm
  case pack4 =>
    obtain rfl := Except.ok.inj ((decode_pack4 x).symm.trans h)
    exact congrArg (TableWord.mk .pack4) (append_packing_fields4 x)
  case pack3 =>
    obtain ⟨hz, rfl⟩ := accept_eq_ok.mp ((decode_pack3 x).symm.trans h)
    have hz : x.extractLsb' 0 6 = 0#6 := beq_iff_eq.mp hz
    rw [encode, ← hz, append_packing_fields4]
  case pack2 =>
    obtain ⟨y, rfl⟩ := decode_ok_setWidth h
    obtain ⟨hz, rfl⟩ := accept_eq_ok.mp ((decode_pack2 y).symm.trans h)
    have hz : y.extractLsb' 0 4 = 0#4 := beq_iff_eq.mp hz
    rw [encode, ← hz]
    exact congrArg (fun z : BitVec 16 => TableWord.mk .pack2 (z.setWidth 24))
      (append_packing_fields2 y)
  case pack1 =>
    obtain ⟨y, rfl⟩ := decode_ok_setWidth h
    obtain ⟨hz, rfl⟩ := accept_eq_ok.mp ((decode_pack1 y).symm.trans h)
    have hz : y.extractLsb' 0 2 = 0#2 := beq_iff_eq.mp hz
    rw [encode, ← hz]
    exact congrArg (fun z : Byte => TableWord.mk .pack1 (z.setWidth 24))
      BitVec.extractLsb'_append_extractLsb'
  case unknown =>
    rw [decode, if_neg (decode_ok_fits h)] at h
    cases h

end Sys2Proof.Proofs
end

section
/-! Sample words (R25, R81, R85 to R92, R121, R124), the reserved command codes (R95 c), and the
settling of O1 and O33: each is the decoder, or the dispatch, evaluated at the row. -/

namespace Sys2Proof.Proofs

/-- Settles O1: the decoder evaluated at each word. -/
theorem sampleWordsDecode : Obligations.SampleWordsDecode := by
  unfold Obligations.SampleWordsDecode
  decide

/-- Settles O33: each of the six codes is an arm of its own that refuses. -/
theorem reservedCommandsAreRefused : Obligations.ReservedCommandsAreRefused :=
  fun _ _ => ⟨rfl, rfl, rfl, rfl, rfl, rfl⟩

end Sys2Proof.Proofs
end

section
/-! The command port (`30_encoding.md` R90 to R94): the word on it, how long it stands there, and
what its command does to the host; and the settling of O5, O53 and O54. -/

namespace Sys2Proof.Machine

/-! ### The command a phase presents -/

/-- Where its operands are in range, a busy phase presents the command that serves it (R94). -/
theorem exec_command {s : State} (hb : s.ph.busy = true)
    (hf : s.ph.operandFault s.toEngine = none) : exec s.command s = .next (s.ph.serve s) := by
  have hsmall (h : s.cnt.toNat ≤ 3) : (s.cnt.setWidth 2).toNat = s.cnt.toNat := by
    rw [BitVec.toNat_setWidth]
    exact Nat.mod_eq_of_lt (by omega)
  cases hp : s.ph
  case idle | halt => simp [hp, Phase.busy] at hb
  case ePb =>
    have h3 : s.cnt.toNat ≤ 3 := by simpa [hp, Phase.operandFault] using hf
    simp [Engine.command, hp, exec, execPushback, Phase.serve, hsmall h3]
  case eSpck =>
    have h3 : s.cnt.toNat ≤ 3 := by simpa [hp, Phase.operandFault] using hf
    simp [Engine.command, hp, exec, execSpace, Phase.serve, hsmall h3]
  all_goals
    simp only [Engine.command, hp]
    rfl

/-! ### The command word -/

/-- The word on the port is the code of the command over its argument (R91). -/
theorem Engine.hcmd_of_command {e : Engine} {op : BitVec 4} {arg : Byte}
    (h : encode e.command = hcmdWord op arg) :
    e.hcmd = (op.setWidth 12 <<< 8) ||| arg.setWidth 12 := by
  rw [← BitVec.setWidth_append_eq_shiftLeft_setWidth_or, Engine.hcmd, h, BitVec.setWidth_eq]
  exact extractLsb'_setWidth_low (by decide) _

/-- A command with an operand of `n` bits presents it in the low bits (R92). -/
theorem Engine.hcmd_of_operand {e : Engine} {op : BitVec 4} {n : Nat} {x : BitVec n} (hn : n ≤ 8)
    (h : encode e.command = hcmdWord op (x.setWidth 8)) :
    e.hcmd = (op.setWidth 12 <<< 8) ||| x.setWidth 12 := by
  have hx : (x.setWidth 8).setWidth 12 = x.setWidth 12 :=
    BitVec.eq_of_toNat_eq (by simp only [BitVec.toNat_setWidth, BitVec.toNat_setWidth_of_le hn])
  rw [Engine.hcmd_of_command h, hx]

/-- A count up to 3 is its low two bits. -/
theorem setWidth_count : ∀ n : BitVec 3, n.toNat ≤ 3 →
    (n.setWidth 2).setWidth 12 = n.setWidth 12 := by
  decide

end Sys2Proof.Machine

namespace Sys2Proof.Proofs

open Sys2Proof.Machine

/-- Settles O5: with `rsp_valid` 0 a step of a busy phase is the sampling alone. -/
theorem unansweredCommandWaits : Obligations.UnansweredCommandWaits := by
  intro s hp hb hr hv
  refine ⟨s.sample, ?_, rfl, State.sample_host_of_busy hb, rfl, rfl, rfl, hb, rfl⟩
  simp [step_of_presented_nil hp, hr, hb, hv]

/-- Settles O53: the operation of a phase is its service followed by an update that leaves the
host's side alone, and the command presented is that service. -/
theorem phaseIssuesItsCommand : Obligations.PhaseIssuesItsCommand := by
  intro s t _ hb ht
  rw [exec_phase hb] at ht
  obtain ⟨hf, rfl⟩ := checked_next.mp ht
  obtain ⟨-, hhost, hrsp, hforced, hdraws⟩ := (s.ph.updated (s.ph.serve s)).sameSurroundings
  exact ⟨_, exec_command hb hf, hhost, hrsp, hforced, hdraws, s.ph.serve_toEngine s⟩

/-- Settles O54: four kinds of phase present an operand, the others a fixed word. -/
theorem commandWordByPhase : Obligations.CommandWordByPhase := by
  intro e
  refine ⟨?resting, ?_, ?_, ?_, ?_, ?ePb, ?flush, ?unlatch, ?eSpc1, ?_, ?eSpck, ?_, ?_,
    e.ph.busy_iff⟩
  case ePb =>
    intro h h3
    rw [← setWidth_count _ h3]
    exact Engine.hcmd_of_operand (op := 5) (by decide) (by rw [Engine.command, h]; rfl)
  case eSpck =>
    intro h h3
    rw [← setWidth_count _ h3]
    exact Engine.hcmd_of_operand (op := 7) (by decide) (by rw [Engine.command, h]; rfl)
  case eSpc1 =>
    intro h
    exact Engine.hcmd_of_operand (op := 7) (by decide) (by rw [Engine.command, h]; rfl)
  case flush =>
    rintro (h | h) <;>
      exact Engine.hcmd_of_command (op := 6) (by rw [Engine.command, h]; rfl)
  case resting | unlatch =>
    rintro (h | h) <;> (rw [Engine.hcmd, Engine.command, h]; rfl)
  all_goals
    intro h
    rw [Engine.hcmd, Engine.command, h]
    rfl

end Sys2Proof.Proofs
end

section
/-! Characters and their classes (`30_encoding.md` R81 to R83), and the settling of O34 to O38. The
class of a character is encodable or illegal as the character is; an encodable class accumulates its
character (R142), an illegal one raises `IllegalChar` (R211). -/

namespace Sys2Proof.Machine

/-! ### The class of a character -/

/-- The four illegal classes (R81). -/
def illegalClass : Instr → Bool
  | .chUnl => true
  | .chLow _ => true
  | .chHi1 _ => true
  | .chHi2 _ => true
  | _ => false

theorem illegalClass_decodeChar : ∀ c : Byte, illegalClass (decodeChar c) = !encodable c := by
  decide

theorem illegalClass_eq_false {i : Instr} :
    illegalClass i = false ↔
      i ≠ .chUnl ∧ (∀ x, i ≠ .chLow x) ∧ (∀ x, i ≠ .chHi1 x) ∧ ∀ x, i ≠ .chHi2 x := by
  cases i <;> simp [illegalClass]

theorem encodable_iff (c : Byte) : encodable c = true ↔ 32 ≤ c.toNat ∧ c.toNat ≤ 94 := by
  rw [encodable, Bool.and_eq_true, decide_eq_true_iff, decide_eq_true_iff]
  rfl

/-! ### The class as an operation -/

theorem exec_of_illegalClass {i : Instr} (h : illegalClass i = true) (s : State) :
    exec i s = .next (s.takeException .illegalChar) := by
  cases i
  case chUnl | chLow | chHi1 | chHi2 => rfl
  all_goals cases h

/-- With room for a cell, the class of a character does what `L_TAKE` does on receiving it. -/
theorem exec_decodeChar {s : State} (c : Byte) (h : s.cnt.toNat ≤ 3) :
    exec (decodeChar c) s = .next (s.receiveChar c) := by
  cases hc : encodable c
  · rw [exec_of_illegalClass (by simp [illegalClass_decodeChar, hc])]
    simp [State.receiveChar, hc]
  · rw [exec_encodableChar hc, acceptClass, withFreeCell_ok _ h]
    simp [State.receiveChar, hc]

/-- An accepted character in full (R142). -/
theorem State.acceptChar_eq (s : State) (c : Byte) :
    s.acceptChar c =
      if s.cnt = 3 then { s with buf := s.buf.set 3 c, cnt := 4, eidx := 0, ph := .lFlush }
      else { s with buf := s.buf.set s.cnt.toNat c, cnt := s.cnt + 1, ph := .lTake } := by
  have hcnt : s.cnt + 1 = 4 ↔ s.cnt = 3 := by bv_omega
  by_cases h : s.cnt = 3
  · rw [State.acceptChar, if_pos (hcnt.mpr h), if_pos h]
    simp [State.push, State.enterFlush, h]
  · rw [State.acceptChar, if_neg (mt hcnt.mp h), if_neg h]
    rfl

/-- Fixed bits above an operand, as a number (R81). -/
theorem append_eq_ofNat {m n : Nat} (hi : BitVec m) (x : BitVec n) :
    hi ++ x = BitVec.ofNat (m + n) (x.toNat + hi.toNat <<< n) := by
  have hlt := (hi ++ x).isLt
  rw [BitVec.toNat_append, ← Nat.shiftLeft_add_eq_or_of_lt x.isLt, add_comm] at hlt
  apply BitVec.eq_of_toNat_eq
  rw [BitVec.toNat_ofNat, Nat.mod_eq_of_lt hlt, BitVec.toNat_append,
    ← Nat.shiftLeft_add_eq_or_of_lt x.isLt, add_comm]

end Sys2Proof.Machine

namespace Sys2Proof.Proofs

open Sys2Proof.Machine

/-- Settles O34: the fixed bits and the operand of each class are the character named, and an
encodable class accepts its character. -/
theorem encodableClassesAccumulate : Obligations.EncodableClassesAccumulate := by
  intro s x y z u v h p hp
  have hchar : acceptedChar p.1 = some (BitVec.ofNat 8 p.2) := by
    simp only [List.mem_cons, List.not_mem_nil, or_false] at hp
    rcases hp with rfl | rfl | rfl | rfl | rfl | rfl
    on_goal 6 => rfl
    all_goals exact congrArg some (append_eq_ofNat _ _)
  rw [exec_of_acceptedChar hchar, acceptClass, withFreeCell_ok _ h, State.acceptChar_eq]

/-- Settles O35: each of the four is an illegal class. -/
theorem illegalClassesRaise : Obligations.IllegalClassesRaise := by
  intro s x y z i hi
  refine exec_of_illegalClass ?_ s
  simp only [List.mem_cons, List.not_mem_nil, or_false] at hi
  rcases hi with rfl | rfl | rfl | rfl <;> rfl

/-- Settles O36: the class is illegal exactly where the character is not encodable. -/
theorem everyCharacterHasOneClass : Obligations.EveryCharacterHasOneClass := by
  intro c
  refine ⟨encode_decodeChar c, encodable_iff c, ?_⟩
  rw [← illegalClass_eq_false, illegalClass_decodeChar, Bool.not_eq_false']

/-- Settles O37: both receive the character on the state after `TAKE`. -/
theorem lTakeRunsTheCharacterClass : Obligations.LTakeRunsTheCharacterClass := by
  intro s c h hc
  rw [exec_decodeChar c (by simpa using h)]
  show execLTake s = _
  rw [execLTake, withFreeCell_ok _ h, hc]

/-- Settles O38: the two maps compared at each of the 256 characters and 64 values. -/
theorem encodableValueDeterminesTheCharacter :
    Obligations.EncodableValueDeterminesTheCharacter := by
  exact ⟨by decide, by decide⟩

end Sys2Proof.Proofs
end

section
/-! The packing forms (`40_packing.md` R121 to R126, `30_encoding.md` R98), and the settling of O13,
O40 and O41. A form is the `EMIT`s of its layouts, the first performed and the others presented; with
no input scheduled the steps that follow perform them one by one. -/

namespace Sys2Proof.Machine

/-! ### The codewords of a form -/

theorem valueOf_setWidth (v : Value) : valueOf (v.setWidth 8) = v :=
  extractLsb'_setWidth_low (by decide) v

/-! The parts of a value in 8-bit arithmetic (R125). -/

theorem high_bits_eq_shift : ∀ v : Value,
    (v.extractLsb' 4 2).setWidth 8 = v.setWidth 8 >>> 4 ∧
      (v.extractLsb' 2 4).setWidth 8 = v.setWidth 8 >>> 2 := by
  decide

theorem low_bits_eq_mask : ∀ v : Value,
    (v.extractLsb' 0 4).setWidth 8 = v.setWidth 8 &&& 0xF ∧
      (v.extractLsb' 0 2).setWidth 8 = v.setWidth 8 &&& 0x3 := by
  decide

theorem layout0_eq_arithmetic (v0 v1 v2 v3 : Value) :
    layout0 v0 v1 = codewordBy8BitArithmetic v0 v1 v2 v3 0 := by
  rw [codewordBy8BitArithmetic, ← (high_bits_eq_shift v1).1,
    ← BitVec.setWidth_append_eq_shiftLeft_setWidth_or]
  exact (BitVec.setWidth_eq _).symm

theorem layout1_eq_arithmetic (v0 v1 v2 v3 : Value) :
    layout1 v1 v2 = codewordBy8BitArithmetic v0 v1 v2 v3 1 := by
  rw [codewordBy8BitArithmetic, ← (high_bits_eq_shift v2).2, ← (low_bits_eq_mask v1).1,
    ← BitVec.setWidth_append_eq_shiftLeft_setWidth_or]
  exact (BitVec.setWidth_eq _).symm

theorem layout2_eq_arithmetic (v0 v1 v2 v3 : Value) :
    layout2 v2 v3 = codewordBy8BitArithmetic v0 v1 v2 v3 2 := by
  simp only [codewordBy8BitArithmetic]
  rw [← (low_bits_eq_mask v2).2, ← BitVec.setWidth_append_eq_shiftLeft_setWidth_or]
  exact (BitVec.setWidth_eq _).symm

/-- The codewords of the four forms as layouts; a value that is not supplied is 0 (R121 to R124). -/
theorem packForm_layouts (a b c d : Value) :
    packForm (cellsOf a b c d) 4 = [layout0 a b, layout1 b c, layout2 c d] ∧
      packForm (cellsOf a b c 0) 3 = [layout0 a b, layout1 b c, layout2 c 0] ∧
      packForm (cellsOf a b 0 0) 2 = [layout0 a b, layout1 b 0] ∧
      packForm (cellsOf a 0 0 0) 1 = [layout0 a 0] := by
  simp [packForm, cellsOf, ncw, Buf.cw, Buf.val, Buf.get, valueOf_setWidth, List.range_succ]

/-! ### The forms as operations -/

theorem exec_pack4 (a b c d : Value) (s : State) :
    exec (.pack4 a b c d) s = .next (s.beginEmits [layout0 a b, layout1 b c, layout2 c d]) :=
  congrArg (fun l => Host.Outcome.next (s.beginEmits l)) (packForm_layouts a b c d).1

theorem exec_pack3 (a b c : Value) (s : State) :
    exec (.pack3 a b c) s = .next (s.beginEmits [layout0 a b, layout1 b c, layout2 c 0]) :=
  congrArg (fun l => Host.Outcome.next (s.beginEmits l)) (packForm_layouts a b c 0).2.1

theorem exec_pack2 (a b : Value) (s : State) :
    exec (.pack2 a b) s = .next (s.beginEmits [layout0 a b, layout1 b 0]) :=
  congrArg (fun l => Host.Outcome.next (s.beginEmits l)) (packForm_layouts a b 0 0).2.2.1

theorem exec_pack1 (a : Value) (s : State) :
    exec (.pack1 a) s = .next (s.beginEmits [layout0 a 0]) :=
  congrArg (fun l => Host.Outcome.next (s.beginEmits l)) (packForm_layouts a 0 0 0).2.2.2

/-! ### The steps of a form -/

/-- A step with an operation presented performs it and takes the word off. -/
theorem step_presented {s : State} {i : Instr} {rest : List TableWord}
    (hr : s.nextSample.pins.rst = false) (hp : s.presented = encode i :: rest) :
    step s = exec i s.sample.fetched :=
  step_run hr (by simp [State.waiting, hp])
    (by simpa [State.fetch, hp] using Proofs.decodeOfEncodeIsIdentity i)

/-- With no input scheduled, a presented form performs its `EMIT`s one a step, in order. -/
theorem run_presentedForm {i : Instr} {b : Byte} {l : List Byte}
    (hx : ∀ u, exec i u = .next (u.beginEmits (b :: l))) {s : State} {rest : List TableWord}
    (hi : s.inputs = []) (hp : s.presented = encode i :: rest) {m : Nat} (hm : m ≤ l.length) :
    ∃ t, Host.Core.run core (m + 1) s = .next t ∧ t.toEngine = s.toEngine ∧
      t.host = { s.host with out := s.host.out ++ b :: l.take m } ∧
      t.presented = (l.drop m).map (fun c => encode (.emit c)) ++ rest ∧ t.inputs = [] ∧
      t.sizeFn = s.sizeFn ∧ t.forced = s.forced.drop (m + 1) ∧ t.draws = s.draws + m + 1 := by
  have hn : s.nextSample = ⟨Pins.quiet, none⟩ := by simp [State.nextSample, hi]
  have hhost : s.sample.host = s.host := by simp [State.sample, hn]
  have hstep : core.step s = .next (s.sample.fetched.beginEmits (b :: l)) :=
    (step_presented (by rw [hn]; rfl) hp).trans (hx _)
  have hwords : (s.sample.fetched.beginEmits (b :: l)).presented =
      (l.take m).map (fun c => encode (.emit c)) ++
        ((l.drop m).map (fun c => encode (.emit c)) ++ rest) := by
    rw [← List.append_assoc, ← List.map_append, List.take_append_drop]
    simp [hp]
  obtain ⟨t, ht, he, hout, hpr, hin, hz, hf, hd⟩ :=
    run_presentedEmits (l.take m) (by simp [hi]) hwords
  refine ⟨t, ?_, by simp [he], ?_, hpr, hin, by simp [hz], ?_, ?_⟩
  · simpa [Host.Core.run, hstep, hm] using ht
  · simp [hout, hhost]
  · simp [hf, hm]
  · simp [hd, hm]; omega

/-! ### A full group in `L_FLUSH` -/

/-- A codeword of a full group but the last (R144). -/
theorem exec_lFlush_next {s : State} {k : Nat} (hn : s.cnt = 4) (hi : s.eidx.toNat = k)
    (hk : k < 2) :
    exec .lFlush s = .next
      { s.hostEmit (s.buf.cw k 4) with eidx := BitVec.ofNat 2 (k + 1), ph := .lFlush } := by
  have hidx : s.eidx + 1 = BitVec.ofNat 2 (k + 1) := by bv_omega
  have hlt : k < ncw 4 := hk.trans (by decide)
  have hne : k ≠ ncw 4 - 1 := hk.ne
  have h4 : s.cnt.toNat = 4 := by rw [hn]; rfl
  show execLFlush s = _
  rw [execLFlush, flushStep_ok (by omega) (by omega) (by rwa [h4, hi]), h4, hi, if_neg hne, hidx]

/-- The last codeword of a full group (R144). -/
theorem exec_lFlush_last {s : State} (hn : s.cnt = 4) (hi : s.eidx.toNat = 2) :
    exec .lFlush s = .next { s.hostEmit (s.buf.cw 2 4) with cnt := 0, ph := .lSwq } := by
  have hlt : 2 < ncw 4 := by decide
  have heq : 2 = ncw 4 - 1 := rfl
  have h4 : s.cnt.toNat = 4 := by rw [hn]; rfl
  show execLFlush s = _
  rw [execLFlush, flushStep_ok (by omega) (by omega) (by rwa [h4, hi]), h4, hi, if_pos heq]

end Sys2Proof.Machine

namespace Sys2Proof.Proofs

open Sys2Proof.Machine

/-- Settles O13: the three `L_FLUSH` steps emit `CW(0,4)` to `CW(2,4)`, which are the codewords of the
form. -/
theorem threeLFlushStepsArePack4 : Obligations.ThreeLFlushStepsArePack4 := by
  intro s hn hi
  have h1 := exec_lFlush_next (k := 0) hn (by rw [hi]; rfl) (by decide)
  have h2 := exec_lFlush_next (k := 1)
    (s := { s.hostEmit (s.buf.cw 0 4) with eidx := 1, ph := .lFlush }) hn rfl (by decide)
  have h3 := exec_lFlush_last
    (s := { { s.hostEmit (s.buf.cw 0 4) with eidx := 1, ph := .lFlush }.hostEmit (s.buf.cw 1 4) with
      eidx := 2, ph := .lFlush }) hn rfl
  exact ⟨_, _, _, _, _, _, h1, h2, h3, exec_pack4 _ _ _ _ s, rfl, rfl, rfl, rfl, rfl, rfl, rfl,
    rfl, rfl, rfl, rfl, rfl⟩

/-- Settles O40: each form begins with the `EMIT` of its first layout, the layouts are those of the
8-bit arithmetic, and a presented form is run to its end. -/
theorem packFormsEmitTheirCodewords : Obligations.PackFormsEmitTheirCodewords := by
  intro s v0 v1 v2 v3 p hp
  have hx (u : State) : exec p.1 u = .next (u.beginEmits (p.2.1 :: p.2.2)) := by
    simp only [List.mem_cons, List.not_mem_nil, or_false] at hp
    simp only [← layout0_eq_arithmetic, ← layout1_eq_arithmetic, ← layout2_eq_arithmetic] at hp
    rcases hp with rfl | rfl | rfl | rfl
    · exact exec_pack4 ..
    · exact exec_pack3 ..
    · exact exec_pack2 ..
    · exact exec_pack1 ..
  refine ⟨⟨_, hx s, rfl, rfl, rfl, rfl, rfl, rfl, rfl, rfl⟩, ?_⟩
  intro rest hpr hi
  obtain ⟨t, ht, he, hout, hw, hin, hz, hf, hd⟩ := run_presentedForm hx hi hpr le_rfl
  exact ⟨t, ht, he, by simpa using hout, by simpa using hw, hz, hin, hf, hd⟩

/-- Settles O41: the layouts of the buffer's values are the codewords of the buffer; zero steps change
nothing, and any more are a run of the presented form. -/
theorem packFormsOfTheBuffer : Obligations.PackFormsOfTheBuffer := by
  intro s hi p hp rest hpr n hn
  have hx : ∃ b l, p.2 = b :: l ∧ ∀ u, exec p.1 u = .next (u.beginEmits (b :: l)) := by
    simp only [List.mem_cons, List.not_mem_nil, or_false] at hp
    rcases hp with rfl | rfl | rfl | rfl
    · exact ⟨_, _, rfl, exec_pack4 _ _ _ _⟩
    · exact ⟨_, _, rfl, exec_pack3 _ _ _⟩
    · exact ⟨_, _, rfl, exec_pack2 _ _⟩
    · exact ⟨_, _, rfl, exec_pack1 _⟩
  obtain ⟨b, l, hl, hx⟩ := hx
  rw [hl] at hn ⊢
  cases n with
  | zero => exact ⟨s, rfl, rfl, by simp, nofun⟩
  | succ m =>
    obtain ⟨t, ht, he, hout, hw, -⟩ := run_presentedForm hx hi hpr (Nat.le_of_succ_le_succ hn)
    refine ⟨t, ht, he, hout, fun hm => ?_⟩
    rw [hw, Nat.succ.inj hm, List.drop_length]
    rfl

end Sys2Proof.Proofs
end

section
/-! What the codewords of a buffer say and do not say (`40_packing.md` R120, R125, R130, R131), and the
settling of O39, O42 and O43. Unpacking reads the four values back from the three layouts, and a
codeword that a group does not have is zero as `Buf.cw` gives it, so that it need not be told apart. -/

namespace Sys2Proof.Machine

/-! ### Unpacking -/

/-- `UNPACK` is the inverse of the layouts (R130, `PACK4`). -/
theorem unpack_layouts (v0 v1 v2 v3 : Value) :
    unpack (layout0 v0 v1) (layout1 v1 v2) (layout2 v2 v3) = [v0, v1, v2, v3] := by
  have hv1 : v1.extractLsb' 4 2 ++ v1.extractLsb' 0 4 = v1 := BitVec.extractLsb'_append_extractLsb'
  have hv2 : v2.extractLsb' 2 4 ++ v2.extractLsb' 0 2 = v2 := BitVec.extractLsb'_append_extractLsb'
  simp only [unpack, layout0, layout1, layout2, BitVec.extractLsb'_append_eq_left,
    BitVec.extractLsb'_append_eq_right, hv1, hv2]

theorem Buf.val_of_le (b : Buf) {i k : Nat} (h : k ≤ i) : b.val i k = 0 :=
  if_neg (Nat.not_lt.mpr h)

/-- A codeword that a group of 1 to 4 values does not have carries no value (R120, R126). -/
theorem Buf.cw_of_ncw_le (b : Buf) {i k : Nat} (h1 : 1 ≤ k) (hi : i < 3) (h : ncw k ≤ i) :
    b.cw i k = 0 := by
  have hk : k ≤ i := by simp only [ncw] at h; omega
  have hv (j : Nat) (hj : i ≤ j) : b.val j k = 0 := b.val_of_le (hk.trans hj)
  have h12 : i = 1 ∨ i = 2 := by omega
  rcases h12 with rfl | rfl
  · show layout1 (b.val 1 k) (b.val 2 k) = 0
    rw [hv 1 le_rfl, hv 2 (by decide)]
    rfl
  · show layout2 (b.val 2 k) (b.val 3 k) = 0
    rw [hv 2 le_rfl, hv 3 (by decide)]
    rfl

/-- Taking a missing codeword as zero (R130) is taking it as `Buf.cw` gives it. -/
theorem Buf.ite_lt_ncw_cw (b : Buf) {i k : Nat} (h1 : 1 ≤ k) (hi : i < 3) :
    (if i < ncw k then b.cw i k else 0) = b.cw i k :=
  ite_eq_left_iff.mpr fun h => (b.cw_of_ncw_le h1 hi (Nat.not_lt.mp h)).symm

/-! ### The cells read -/

/-- A codeword depends on the values supplied alone (R125). -/
theorem Buf.cw_eq_of_val_eq {b b' : Buf} {k : Nat} (h : ∀ j, b.val j k = b'.val j k) (i : Nat) :
    b.cw i k = b'.cw i k := by
  simp only [Buf.cw, h]

/-- A value supplied depends on the low six bits of its cell alone, and on none at or beyond the
count (R120). -/
theorem Buf.val_eq_of_valueOf_eq {b b' : Buf} {k : Nat}
    (h : ∀ j, j < k → valueOf (b.get j) = valueOf (b'.get j)) (j : Nat) :
    b.val j k = b'.val j k := by
  by_cases hj : j < k
  · rw [Buf.val, Buf.val, h j hj]
  · rw [b.val_of_le (Nat.not_lt.mp hj), b'.val_of_le (Nat.not_lt.mp hj)]

/-- Each codeword is that of the 8-bit arithmetic on the values supplied (R125). -/
theorem Buf.cw_eq_arithmetic (b : Buf) (k : Nat) {i : Nat} (hi : i < 3) :
    b.cw i k = codewordBy8BitArithmetic (b.val 0 k) (b.val 1 k) (b.val 2 k) (b.val 3 k) i := by
  match i, hi with
  | 0, _ => exact layout0_eq_arithmetic ..
  | 1, _ => exact layout1_eq_arithmetic ..
  | 2, _ => exact layout2_eq_arithmetic ..

end Sys2Proof.Machine

namespace Sys2Proof.Proofs

open Sys2Proof.Machine

/-- Settles O42: with every missing codeword as `Buf.cw` gives it, unpacking gives the four values
supplied, which are those of the pending cells and zeros behind them. -/
theorem unpackRecoversTheValues : Obligations.UnpackRecoversTheValues := by
  intro b k h1 h4
  have hlen : ((b.pending k).map valueOf).length = k := by simp [Buf.pending, Buf.cells, h4]
  rw [b.ite_lt_ncw_cw h1 (by decide), b.ite_lt_ncw_cw h1 (by decide)]
  calc (unpack (b.cw 0 k) (b.cw 1 k) (b.cw 2 k)).take k
      = [b.val 0 k, b.val 1 k, b.val 2 k, b.val 3 k].take k :=
        congrArg (List.take k) (unpack_layouts ..)
    _ = (b.pending k).map valueOf := by rw [b.vals_eq h4, List.take_left' hlen]

/-- Settles O39: the slices are the layouts themselves, and each layout is its 8-bit arithmetic. -/
theorem codewordsMatchThe8BitArithmetic : Obligations.CodewordsMatchThe8BitArithmetic := by
  intro b k
  exact ⟨rfl, rfl, rfl, fun _ hi => b.cw_eq_arithmetic k hi⟩

/-- Settles O43: a codeword reads the values supplied, and those the low six bits of the cells. -/
theorem upperBitsAreIgnored : Obligations.UpperBitsAreIgnored := by
  intro b b' k i h
  exact Buf.cw_eq_of_val_eq (Buf.val_eq_of_valueOf_eq h) i

end Sys2Proof.Proofs
end

section
/-! Start, the main loop and halt (`41_consume_loop.md` R140 to R148), and the settling of O8 to O12
and O14. Between runs the operation of `PH` is one choice on the `start` pin; in a run it is one
command answered, followed by the update of the phase. -/

namespace Sys2Proof.Machine

/-- What `IDLE` and `HALT` do: a start if the pin is 1, else they stay (R141, R148). -/
theorem startOrStay_cases (s : State) (p : Phase) :
    (s.pins.start = false → (if s.pins.start then s.startRun else s.goto p) = { s with ph := p }) ∧
      (s.pins.start = true → (if s.pins.start then s.startRun else s.goto p) = s.startRun) :=
  ⟨fun h => if_neg (by simp [h]), fun h => if_pos h⟩

/-- Serving the command of a busy phase delivers one response word (R93). -/
theorem Phase.answered_serve {p : Phase} (hb : p.busy = true) (s : State) :
    s.answered (p.serve s) := by
  refine ⟨p.sameOutside_serve s, ?_⟩
  cases p
  case idle | halt => simp [Phase.busy] at hb
  all_goals simp [Phase.serve]

/-- With its operands in range, the operation of a busy phase is one command answered and an update of
the engine that leaves the host and the response port as the command left them. -/
theorem exec_phase_answers {p : Phase} (hb : p.busy = true) {s : State}
    (hf : p.operandFault s.toEngine = none) :
    ∃ t, exec (decodePhase p.code) s = .next t ∧ s.answered t ∧ t.host = (p.serve s).host ∧
      t.hrsp = (p.serve s).hrsp ∧ t.toEngine = (p.update (p.serve s)).toEngine := by
  have hexec := exec_phase hb s
  rw [hf] at hexec
  obtain ⟨⟨hpins, hsize, hin, hpres⟩, hforced, hdraws⟩ := p.answered_serve hb s
  obtain ⟨⟨hpins', hsize', hin', hpres'⟩, hhost, hrsp, hforced', hdraws'⟩ :=
    (p.updated (p.serve s)).sameSurroundings
  exact ⟨_, hexec, ⟨⟨hpins'.trans hpins, hsize'.trans hsize, hin'.trans hin, hpres'.trans hpres⟩,
    hforced'.trans hforced, hdraws'.trans hdraws⟩, hhost, hrsp, rfl⟩

/-- The engine on receiving a character (R142). -/
theorem State.receiveChar_toEngine (s : State) (c : Byte) :
    (s.receiveChar c).toEngine =
      if 32 ≤ c.toNat ∧ c.toNat ≤ 94 then
        if s.cnt = 3 then
          { s.toEngine with buf := s.buf.set 3 c, cnt := 4, eidx := 0, ph := .lFlush }
        else { s.toEngine with buf := s.buf.set s.cnt.toNat c, cnt := s.cnt + 1, ph := .lTake }
      else { s.toEngine with st := .illegal, cnt := 0, ph := .halt } := by
  simp only [State.receiveChar, encodable_iff, State.acceptChar_eq]
  split_ifs <;> rfl

/-- The operands of a flush phase are in range where `CW(EIDX, CNT)` is defined (R125, R126). -/
theorem operandFault_flush {p : Phase} (hp : p = .lFlush ∨ p = .eFlush) {e : Engine}
    (h1 : 1 ≤ e.cnt.toNat) (h4 : e.cnt.toNat ≤ 4) (hi : e.eidx.toNat < ncw e.cnt.toNat) :
    p.operandFault e = none := by
  have hn : ¬(e.cnt = 0 ∨ 4 < e.cnt.toNat) := by bv_omega
  rcases hp with rfl | rfl <;> exact (if_neg hn).trans (if_neg (Nat.not_le.mpr hi))

end Sys2Proof.Machine

namespace Sys2Proof.Proofs

open Sys2Proof.Machine

/-- Settles O8: `IDLE` presents no command, and starts or stays by the pin. -/
theorem idleWaitsForStart : Obligations.IdleWaitsForStart := by
  refine ⟨decodeOfEncodeIsIdentity .idle, fun e h => by rw [Engine.cmdValid, h]; rfl, fun s => ?_⟩
  obtain ⟨hstay, hstart⟩ := startOrStay_cases s .idle
  exact ⟨fun h => congrArg _ (hstay h), fun h => congrArg _ (hstart h)⟩

/-- Settles O10: `HALT` presents no command, and starts or stays by the pin. -/
theorem haltKeepsTheResult : Obligations.HaltKeepsTheResult := by
  refine ⟨decodeOfEncodeIsIdentity .halt, fun e h => by rw [Engine.cmdValid, h]; rfl, fun s => ?_⟩
  obtain ⟨hstay, hstart⟩ := startOrStay_cases s .halt
  exact ⟨fun h => congrArg _ (hstay h), fun h => congrArg _ (hstart h)⟩

/-- Settles O9: `START` begins a run exactly where the phase is not busy. -/
theorem startBeginsARun : Obligations.StartBeginsARun := by
  intro s
  have hbusy := s.ph.busy_iff
  refine ⟨fun h => congrArg Host.Outcome.next (if_neg (by tauto)), fun hi hh => ?_⟩
  exact congrArg Host.Outcome.next (if_pos (hbusy.mpr ⟨hi, hh⟩))

/-- Settles O11: the answer of `TAKE` is the character at the cursor, and the update is that of the
answer delivered. -/
theorem lTakeFollowsTheAnswer : Obligations.LTakeFollowsTheAnswer := by
  refine ⟨decodeOfEncodeIsIdentity .lTake, fun e => ?_, fun s h3 => ?_⟩
  · obtain ⟨-, htake, -⟩ := commandWordByPhase e
    exact htake
  · obtain ⟨t, hexec, hans, hhost, hrsp, heng⟩ :=
      exec_phase_answers (p := .lTake) rfl (s := s) (if_neg (Nat.not_lt.mpr h3))
    refine ⟨t, hexec, hans, fun hf => ?_, hhost.trans (hostTake_host s), heng.trans ?_⟩
    · rw [hrsp]
      exact hostTake_char? hf
    · rw [hrsp]
      simp only [Phase.serve, Phase.update]
      cases s.hostTake.hrsp.char? with
      | none => rw [State.goto_toEngine, State.hostTake_toEngine]
      | some c => rw [State.receiveChar_toEngine, State.hostTake_toEngine]

/-- Settles O12: the host is served `EMIT CW(EIDX, CNT)`, and the index decides the update. -/
theorem lFlushEmitsOneCodeword : Obligations.LFlushEmitsOneCodeword := by
  refine ⟨decodeOfEncodeIsIdentity .lFlush, fun e h => ?_, fun s h1 h4 hi => ?_⟩
  · obtain ⟨-, -, -, -, -, -, hflush, -⟩ := commandWordByPhase e
    exact hflush (.inl h)
  · obtain ⟨t, hexec, hans, hhost, -, heng⟩ :=
      exec_phase_answers (p := .lFlush) rfl (operandFault_flush (.inl rfl) h1 h4 hi)
    refine ⟨t, hexec, hans, hhost, heng.trans ?_⟩
    exact apply_ite State.toEngine ..

/-- Settles O14: the update reads the flag of the answer delivered. -/
theorem lSwqFollowsTheAnswer : Obligations.LSwqFollowsTheAnswer := by
  refine ⟨decodeOfEncodeIsIdentity .lSwq, fun e => ?_, fun s => ?_⟩
  · obtain ⟨-, -, -, -, -, -, -, -, -, -, -, -, hswitchq, -⟩ := commandWordByPhase e
    exact hswitchq
  · obtain ⟨t, hexec, hans, hhost, hrsp, heng⟩ :=
      exec_phase_answers (p := .lSwq) rfl (s := s) rfl
    exact ⟨t, hexec, hans, hhost, by rw [heng, hrsp]; rfl⟩

end Sys2Proof.Proofs
end

section
/-! The length of a run (`41_consume_loop.md` R149, `42_end_of_segment.md` R172), and the settling of
O57: with both invariants no operand is out of range, so that a run goes on until `HALT`, and each of
its steps makes `State.stepsLeft` smaller. -/

namespace Sys2Proof.Machine

/-! ### A run goes on -/

/-- The invariant keeps the operands of every phase in range (R23, R26, R213). -/
theorem Engine.operandFault_eq_none {e : Engine} (hc : e.countOk) (hi : e.indexOk) :
    e.ph.operandFault e = none := by
  obtain ⟨-, hflush, -⟩ := hi
  cases hp : e.ph <;> simp only [Engine.countOk, hp] at hc
  case lTake | ePb | eSpck | ePeek => exact if_neg (by omega)
  case lFlush =>
    exact operandFault_flush (.inl rfl) (by simp [hc]) (by simp [hc]) (hflush (.inl hp))
  case eFlush => exact operandFault_flush (.inr rfl) hc.1 hc.2 (hflush (.inr hp))
  all_goals rfl

/-- With no input scheduled, a step of a run is the service and the update of its phase. -/
theorem step_of_busy {s : State} (hc : s.ControlInv) (hi : s.inputs = []) (hb : s.ph.busy = true) :
    step s = .next (s.ph.update (s.ph.serve s.sample)) := by
  obtain ⟨hp, hcnt, hidx, -⟩ := hc
  have hn : s.nextSample.pins = Pins.quiet := by simp [State.nextSample, hi]
  simp [step_of_presented_nil hp, hn, hb, Pins.quiet, Engine.operandFault_eq_none hcnt hidx, checked]

/-- An update goes to a successor of its phase (R172). -/
theorem Phase.Updated.mem_successors {p : Phase} {s t : State} (hu : p.Updated s t) :
    t.ph ∈ p.successors := by
  cases hu
  case resting hp => cases p <;> simp [Phase.busy, Phase.successors] at hp ⊢
  case nextCodeword hi hp => rcases hp with rfl | rfl <;> simp [Phase.successors]
  case noSpace hp => rcases hp with rfl | rfl | rfl <;> simp [Phase.successors]
  case notFewLeft | longTail | tailDeclined =>
    rcases decline_eq s.cnt with ⟨hd, -⟩ | ⟨hd, -⟩ <;> simp [Phase.successors, hd]
  all_goals simp [Phase.successors]

theorem Phase.idle_not_mem_successors {p : Phase} (h : p ≠ .idle) : Phase.idle ∉ p.successors := by
  revert h
  cases p <;> decide

/-! ### The bound -/

theorem State.stepsLeft_of_decline {s : State} (h : s.ph = decline s.cnt) : s.stepsLeft ≤ 5 := by
  rcases decline_eq s.cnt with ⟨hd, -⟩ | ⟨hd, -⟩ <;> simp [State.stepsLeft, h, hd]

theorem ncw_le_three (n : Nat) : ncw n ≤ 3 := Nat.min_le_right ..

/-- In `E_MODE` what is left is the mode and the codewords of the pending cells, if any. -/
theorem State.stepsLeft_of_eMode {s : State} (h : s.ph = .eMode) :
    s.stepsLeft = 1 + ncw s.cnt.toNat := by
  rw [State.stepsLeft, h]
  by_cases h0 : s.cnt = 0
  · rw [h0]
    rfl
  · simp only [if_neg h0]

/-- Each step of a run makes the bound smaller: a character taken shortens the input left, a codeword
the group, and every other step goes down the graph. -/
theorem Phase.Updated.stepsLeft_lt {p : Phase} {s t : State} (hu : p.Updated (p.serve s) t)
    (hb : p.busy = true) (hp : s.ph = p) (hc : s.countOk) (hi : s.indexOk) (hf : s.forced = []) :
    t.stepsLeft < s.stepsLeft := by
  obtain ⟨hidx, hflush, -⟩ := hi
  cases hu <;> simp only [Engine.countOk, hp] at hc
  case resting hr => simp [hr] at hb
  case accepted c he hr hn | fourth c he hr hn =>
    obtain ⟨hat, hhost⟩ := hostTake_of_some hf hr
    obtain ⟨hlt, -⟩ := List.getElem?_eq_some_iff.mp hat
    simp [State.stepsLeft, hp, Phase.serve, hhost]
    omega
  case nextCodeword hi hf' =>
    have hlt := hflush (hp ▸ hf')
    have hnext : (s.eidx + 1).toNat = s.eidx.toNat + 1 := by bv_omega
    rcases hf' with rfl | rfl <;> simp only [State.stepsLeft, hp, Phase.serve, State.hostEmit_toEngine,
      State.hostEmit_host, hnext] <;> omega
  case inputEnd | switch | groupDone =>
    simp [State.stepsLeft, hp, Phase.serve]
    omega
  case noSpace hf' => rcases hf' with rfl | rfl | rfl <;> simp [State.stepsLeft, hp]
  case notFewLeft | longTail | tailDeclined =>
    refine (State.stepsLeft_of_decline (by simp)).trans_lt ?_
    simp [State.stepsLeft, hp]
  case lastGroupDone =>
    have hlt := hflush (.inr hp)
    simp [State.stepsLeft, hp]
    omega
  case marked =>
    have h5 : s.stepsLeft = 5 := by simp [State.stepsLeft, hp]
    rw [State.stepsLeft_of_eMode rfl, h5]
    exact Nat.add_lt_add_left (Nat.lt_succ_of_le (ncw_le_three _)) 1
  case unmarked =>
    have hle := ncw_le_three s.cnt.toNat
    simp [State.stepsLeft, hp]
    omega
  case modeThenFlush =>
    rw [State.stepsLeft_of_eMode hp]
    simp [State.stepsLeft]
  case pushedBack | unlatchPadding =>
    rw [State.stepsLeft_of_eMode rfl]
    simp [State.stepsLeft, hp, hc, ncw]
  all_goals simp [State.stepsLeft, hp, Phase.serve]

/-! ### A run -/

/-- What a run keeps until it is over, with no input scheduled: both invariants, and it is not back in
`IDLE`. -/
def State.OnRun (s : State) : Prop :=
  s.ControlInv ∧ s.HostInv ∧ s.inputs = [] ∧ s.ph ≠ .idle

/-- A run that is not over takes a step, which stays on the run and comes nearer to its end. -/
theorem State.OnRun.step {s : State} (h : s.OnRun) (hh : s.ph ≠ .halt) :
    ∃ t, step s = .next t ∧ t.OnRun ∧ t.stepsLeft < s.stepsLeft := by
  obtain ⟨hc, hhost, hi, hidle⟩ := h
  have hb : s.ph.busy = true := s.ph.busy_iff.mpr ⟨hidle, hh⟩
  have hs := step_of_busy hc hi hb
  have hu := s.ph.updated (s.ph.serve s.sample)
  obtain ⟨⟨-, -, hin, -⟩, -⟩ := hu.sameSurroundings
  obtain ⟨-, -, hin', -⟩ := s.ph.sameOutside_serve s.sample
  have hbound : s.sample.stepsLeft = s.stepsLeft := by rw [sample_of_inputs_nil hi]; rfl
  obtain ⟨-, hcnt, hidx, -⟩ := sample_controlInv hc
  obtain ⟨hf, -⟩ := sample_hostInv hhost
  refine ⟨_, hs, ⟨Proofs.stepKeepsTheControlInvariant s _ hc hs,
    Proofs.stepKeepsTheHostInvariant s _ hc hhost hs, by simp [hin, hin', hi], fun ht => ?_⟩, ?_⟩
  · exact Phase.idle_not_mem_successors hidle (ht ▸ hu.mem_successors)
  · exact hbound ▸ hu.stepsLeft_lt hb rfl hcnt hidx hf

/-- A run whose every step makes a bound smaller until `Q` holds reaches `Q` within the bound. -/
theorem run_reaches {I Q : State → Prop} {bound : State → Nat}
    (hstep : ∀ s, I s → Q s ∨ ∃ t, step s = .next t ∧ I t ∧ bound t < bound s) {s : State}
    (hs : I s) : ∃ n t, n ≤ bound s ∧ Host.Core.run core n s = .next t ∧ Q t := by
  induction hm : bound s using Nat.strong_induction_on generalizing s with
  | h m ih =>
    rcases hstep s hs with hq | ⟨u, hu, hiu, hlt⟩
    · exact ⟨0, s, Nat.zero_le _, rfl, hq⟩
    · obtain ⟨n, t, hn, hrun, hq⟩ := ih _ (hm ▸ hlt) hiu rfl
      have hcore : core.step s = .next u := hu
      exact ⟨n + 1, t, by omega, by simpa only [Host.Core.run, hcore] using hrun, hq⟩

end Sys2Proof.Machine

namespace Sys2Proof.Proofs

open Sys2Proof.Machine

/-- Settles O57: until `HALT` each step of a run makes `State.stepsLeft` smaller. -/
theorem everyRunEnds : Obligations.EveryRunEnds := by
  intro s hc hh hi hb
  have hs : s.OnRun := ⟨hc, hh, hi, (s.ph.busy_iff.mp hb).1⟩
  exact run_reaches (fun u hu => or_iff_not_imp_left.mpr hu.step) hs

end Sys2Proof.Proofs
end

section
/-! The phases of end-of-segment handling (`42_end_of_segment.md` R161 to R171, R175), and the
settling of O15 to O24. Each is one command answered, followed by the update of the phase on the
answer delivered. -/

namespace Sys2Proof.Machine

/-- `E_MODE` asks whether `CNT` is positive (R170). -/
theorem toNat_pos_iff_ne_zero (n : BitVec 3) : 0 < n.toNat ↔ n ≠ 0 := by
  bv_omega

end Sys2Proof.Machine

namespace Sys2Proof.Proofs

open Sys2Proof.Machine

/-- Settles O15: the update reads the number in the answer of `COUNT`. -/
theorem eCntChecksTheRest : Obligations.ECntChecksTheRest := by
  refine ⟨decodeOfEncodeIsIdentity .eCnt, fun e => ?_, fun s => ?_⟩
  · obtain ⟨-, -, hcount, -⟩ := commandWordByPhase e
    exact hcount
  · obtain ⟨t, hexec, hans, hhost, hrsp, heng⟩ :=
      exec_phase_answers (p := .eCnt) rfl (s := s) rfl
    refine ⟨t, hexec, hans, hhost, fun hf => ?_, ?_⟩
    · rw [hrsp]
      exact hostCount_int hf
    · rw [heng, hrsp]
      rfl

/-- Settles O16: the update sizes the tail of the answer of `PEEK`. -/
theorem ePeekSizesTheTail : Obligations.EPeekSizesTheTail := by
  refine ⟨decodeOfEncodeIsIdentity .ePeek, fun e => ?_, fun s h4 => ?_⟩
  · obtain ⟨-, -, -, hpeek, -⟩ := commandWordByPhase e
    exact hpeek
  · obtain ⟨t, hexec, hans, hhost, hrsp, heng⟩ :=
      exec_phase_answers (p := .ePeek) rfl (s := s) (if_neg (Nat.not_lt.mpr h4))
    refine ⟨t, hexec, hans, hhost, s.sizeFn.size (tail s.buf s.cnt t.hrsp), rfl, ?_⟩
    rw [heng, hrsp]
    rfl

/-- Settles O17: the answer of `SPACE(ASZ)`, and the two bounds on it. -/
theorem eSpc1ChecksTheSpace : Obligations.ESpc1ChecksTheSpace := by
  refine ⟨decodeOfEncodeIsIdentity .eSpc1, fun e => ?_, fun s => ?_⟩
  · obtain ⟨-, -, -, -, -, -, -, -, hspace, -⟩ := commandWordByPhase e
    exact hspace
  · obtain ⟨t, hexec, hans, hhost, hrsp, heng⟩ :=
      exec_phase_answers (p := .eSpc1) rfl (s := s) rfl
    refine ⟨t, hexec, hans, hhost, fun hf => ?_, heng.trans ?_⟩
    · rw [hrsp]
      exact hostSpace_space? hf _
    · rw [hrsp]
      simp only [Phase.serve, Phase.update]
      cases (s.hostSpace s.asz.toNat).hrsp.space? with
      | none => rfl
      | some n =>
        simp only [and_comm (a := s.asz.toNat ≤ n)]
        rfl

/-- Settles O18: the host is served `PUSHBACK(CNT)`, and the update is the same on every answer. -/
theorem ePbGivesTheCharactersBack : Obligations.EPbGivesTheCharactersBack := by
  refine ⟨decodeOfEncodeIsIdentity .ePb, fun e => ?_, fun s h3 => ?_⟩
  · obtain ⟨-, -, -, -, -, hpushback, -⟩ := commandWordByPhase e
    exact hpushback
  · obtain ⟨t, hexec, hans, hhost, -, heng⟩ :=
      exec_phase_answers (p := .ePb) rfl (s := s) (if_neg (Nat.not_lt.mpr h3))
    refine ⟨t, hexec, hans, ?_, fun hn => ?_, heng⟩
    · rw [hhost]
      rfl
    · rw [hhost]
      exact posAfterPushback_of_taken _ hn

/-- Settles O19: the update reads the flag of the answer of `MORE`. -/
theorem eMoreFollowsTheAnswer : Obligations.EMoreFollowsTheAnswer := by
  refine ⟨decodeOfEncodeIsIdentity .eMore, fun e => ?_, fun s => ?_⟩
  · obtain ⟨-, -, -, -, hmore, -⟩ := commandWordByPhase e
    exact hmore
  · obtain ⟨t, hexec, hans, hhost, hrsp, heng⟩ :=
      exec_phase_answers (p := .eMore) rfl (s := s) rfl
    refine ⟨t, hexec, hans, hhost, fun hf => ?_, ?_⟩
    · rw [hrsp]
      exact (Bool.eq_iff_iff.mp (hostMore_flag hf)).trans decide_eq_true_iff
    · rw [heng, hrsp]
      rfl

/-- Settles O20: the answer of `SPACE(0)` is none, zero or positive. -/
theorem eSpc0ChecksForRoom : Obligations.ESpc0ChecksForRoom := by
  refine ⟨decodeOfEncodeIsIdentity .eSpc0, fun e => ?_, fun s => ?_⟩
  · obtain ⟨-, -, -, -, -, -, -, -, -, hspace, -⟩ := commandWordByPhase e
    exact hspace
  · obtain ⟨t, hexec, hans, hhost, hrsp, heng⟩ :=
      exec_phase_answers (p := .eSpc0) rfl (s := s) rfl
    refine ⟨t, hexec, hans, hhost, fun hf => ?_, heng.trans ?_⟩
    · rw [hrsp]
      exact hostSpace_space? hf 0
    · rw [hrsp]
      simp only [Phase.serve, Phase.update]
      rcases (s.hostSpace 0).hrsp.space? with _ | _ | n <;> rfl

/-- Settles O21: both phases are served `EMIT` of the unlatch codeword. -/
theorem unlatchPhasesEmitTheMarker : Obligations.UnlatchPhasesEmitTheMarker := by
  refine ⟨decodeOfEncodeIsIdentity .eUnlp, decodeOfEncodeIsIdentity .eUnls, fun e => ?_,
    fun s => ⟨?_, ?_⟩⟩
  · obtain ⟨-, -, -, -, -, -, -, hunlatch, -⟩ := commandWordByPhase e
    exact hunlatch
  · obtain ⟨t, hexec, hans, hhost, -, heng⟩ :=
      exec_phase_answers (p := .eUnlp) rfl (s := s) rfl
    exact ⟨t, hexec, hans, hhost, heng⟩
  · obtain ⟨t, hexec, hans, hhost, -, heng⟩ :=
      exec_phase_answers (p := .eUnls) rfl (s := s) rfl
    exact ⟨t, hexec, hans, hhost, heng⟩

/-- Settles O22: the answer of `SPACE(CNT)`, and whether there is room for the marker. -/
theorem eSpckAppendsTheMarker : Obligations.ESpckAppendsTheMarker := by
  refine ⟨decodeOfEncodeIsIdentity .eSpck, fun e => ?_, fun s h3 => ?_⟩
  · obtain ⟨-, -, -, -, -, -, -, -, -, -, hspace, -⟩ := commandWordByPhase e
    exact hspace
  · obtain ⟨t, hexec, hans, hhost, hrsp, heng⟩ :=
      exec_phase_answers (p := .eSpck) rfl (s := s) (if_neg (Nat.not_lt.mpr h3))
    refine ⟨t, hexec, hans, hhost, fun hf => ?_, heng.trans ?_⟩
    · rw [hrsp]
      exact hostSpace_space? hf _
    · rw [hrsp]
      simp only [Phase.serve, Phase.update]
      cases (s.hostSpace s.cnt.toNat).hrsp.space? with
      | none => rfl
      | some n => exact apply_ite State.toEngine ..

/-- Settles O23: the host is served `SETMODE`, and the count decides the update. -/
theorem eModeSwitchesTheHost : Obligations.EModeSwitchesTheHost := by
  refine ⟨decodeOfEncodeIsIdentity .eMode, fun e => ?_, fun s => ?_⟩
  · obtain ⟨-, -, -, -, -, -, -, -, -, -, -, hmode, -⟩ := commandWordByPhase e
    exact hmode
  · obtain ⟨t, hexec, hans, hhost, -, heng⟩ :=
      exec_phase_answers (p := .eMode) rfl (s := s) rfl
    refine ⟨t, hexec, hans, hhost, heng.trans ?_⟩
    simp only [Phase.serve, Phase.update, State.hostSetMode_toEngine, toNat_pos_iff_ne_zero,
      ite_not]
    exact apply_ite State.toEngine ..

/-- Settles O24: the host is served `EMIT CW(EIDX, CNT)`, and the index decides the update. -/
theorem eFlushEmitsOneCodeword : Obligations.EFlushEmitsOneCodeword := by
  refine ⟨decodeOfEncodeIsIdentity .eFlush, fun e h => ?_, fun s h1 h4 hi => ?_⟩
  · obtain ⟨-, -, -, -, -, -, hflush, -⟩ := commandWordByPhase e
    exact hflush (.inr h)
  · obtain ⟨t, hexec, hans, hhost, -, heng⟩ :=
      exec_phase_answers (p := .eFlush) rfl (operandFault_flush (.inr rfl) h1 h4 hi)
    refine ⟨t, hexec, hans, hhost, heng.trans ?_⟩
    exact apply_ite State.toEngine ..

end Sys2Proof.Proofs
end

section
/-! The control-flow graph of the sequencer (`42_end_of_segment.md` R172), and the settling of O48:
an update goes to a successor of its phase, and enters `HALT` with a status of that edge. -/

namespace Sys2Proof.Machine

/-- A step that neither resets nor waits, with no presented word: between runs it stays or starts,
in a run it is the step of the phase. -/
theorem step_next_of_not_waiting {s t : State} (hp : s.presented = [])
    (hr : s.nextSample.pins.rst = false) (hw : s.sample.waiting = false) (h : step s = .next t) :
    s.ph.busy = false ∧ (t = s.sample ∨ t = s.sample.startRun) ∨
      s.ph.busy = true ∧ t = s.ph.update (s.ph.serve s.sample) := by
  rw [step_of_presented_nil hp, hr] at h
  cases hb : s.ph.busy
  · cases hs : s.nextSample.pins.start
    · exact .inl ⟨rfl, .inl (by simpa [hb, hs] using h.symm)⟩
    · exact .inl ⟨rfl, .inr (by simpa [hb, hs] using h.symm)⟩
  · have hv : s.nextSample.pins.rspValid = true := by
      simpa [State.waiting, Engine.cmdValid, hp, hb] using hw
    simp only [hb, hv, Bool.false_eq_true, if_false, if_true] at h
    exact .inr ⟨rfl, (checked_next.mp h).2.symm⟩

/-- Between runs the machine stays or begins a run (R141, R148, R172). -/
theorem Phase.mem_successors_of_resting {p : Phase} (hb : p.busy = false) :
    p ∈ p.successors ∧ .lTake ∈ p.successors := by
  revert hb
  cases p <;> decide

/-- An update that ends a run leaves a status of its phase's edge into `HALT` (R172). -/
theorem Phase.Updated.st_mem_exits {p : Phase} {s t : State} (hu : p.Updated s t)
    (hb : p.busy = true) (hh : t.ph = .halt) : t.st ∈ p.exits := by
  cases hu
  case illegal | full | lastGroupDone | unlatchSwitch | modeThenHalt =>
    simp [Phase.exits, Exc.status]
  case noSpace hp => rcases hp with rfl | rfl | rfl <;> simp [Phase.exits, Exc.status]
  case resting hp => simp [hp] at hb
  case nextCodeword hi hp => rcases hp with rfl | rfl <;> cases hh
  case notFewLeft | longTail | tailDeclined => exact absurd hh (decline_not_ended _).1
  all_goals cases hh

end Sys2Proof.Machine

namespace Sys2Proof.Proofs

open Sys2Proof.Machine

/-- Settles O48: between runs the machine stays or starts, and in a run the update follows the
graph. -/
theorem phasesFollowTheGraph : Obligations.PhasesFollowTheGraph := by
  intro s t hp hr hw hs
  rcases step_next_of_not_waiting hp hr hw hs with ⟨hb, rfl | rfl⟩ | ⟨hb, rfl⟩
  · exact ⟨(Phase.mem_successors_of_resting hb).1, fun hn hh => absurd hh hn⟩
  · exact ⟨(Phase.mem_successors_of_resting hb).2, nofun⟩
  · have hu := s.ph.updated (s.ph.serve s.sample)
    exact ⟨hu.mem_successors, fun _ hh => hu.st_mem_exits hb hh⟩

end Sys2Proof.Proofs
end

section
/-! The outcome of end-of-segment handling (`42_end_of_segment.md` R173, R174), and the settling of
O58 and O59. `Phase.resultAhead` reads the outcome table from every phase on the way: it is what the
run will come to, no step changes it, and in `HALT` it is what the run has come to. -/

namespace Sys2Proof.Machine

/-! ### The outcome table in parts -/

/-- The columns of the outcome table: the host, `ST`, `UNL`, `MSW` and `CHEAP`. -/
abbrev RunResult := HostCtx × RunStatus × Bool × Bool × Bool

/-- What a run has come to. -/
def State.result (s : State) : RunResult :=
  (s.host, s.st, s.unl, s.msw, s.cheap)

/-- The host with codewords emitted. -/
def HostCtx.emitting (h : HostCtx) (l : List Byte) : HostCtx := { h with out := h.out ++ l }

/-- The host with codewords emitted and the default mode set. -/
def HostCtx.switched (h : HostCtx) (l : List Byte) : HostCtx :=
  { h with out := h.out ++ l, mode := .default }

/-- The host with the `n` characters last taken given back and the default mode set. -/
def HostCtx.givenBack (h : HostCtx) (n : Nat) : HostCtx :=
  { h with pos := h.pos - n, mode := .default }

/-- A query answered `none` (row 8 of R173). -/
def State.noSpaceResult (s : State) : RunResult :=
  (s.host, .noSpace, s.unl, s.msw, s.cheap)

/-- Nothing pending and no input left (rows 2 and 3 of R173). -/
def State.paddingResult (s : State) : RunResult :=
  match s.host.spaceFor 0 with
  | none => s.noSpaceResult
  | some 0 => (s.host, .ok, s.unl, s.msw, s.cheap)
  | some _ => (s.host.switched [0x7C], .ok, true, true, s.cheap)

/-- Nothing pending (rows 2 to 4 of R173). -/
def State.emptyResult (s : State) : RunResult :=
  if 0 < s.host.inp.length - s.host.pos then (s.host.emitting [0x7C], .ok, true, s.msw, s.cheap)
  else s.paddingResult

/-- Characters pending (rows 5 to 7 of R173). -/
def State.groupResult (s : State) : RunResult :=
  match s.host.spaceFor s.cnt.toNat with
  | none => s.noSpaceResult
  | some n =>
    if 0 < n ∨ s.cnt.toNat = 3 then
      (s.host.switched (finalGroup (s.buf.set s.cnt.toNat 0x1F) (s.cnt.toNat + 1)), .ok, true, true,
        s.cheap)
    else (s.host.emitting (finalGroup s.buf s.cnt.toNat), .ok, s.unl, s.msw, s.cheap)

/-- `DECLINE` (R175). -/
def State.declinedResult (s : State) : RunResult :=
  if s.cnt.toNat = 0 then s.emptyResult else s.groupResult

/-- A tail of size `a` that is worth asking for (row 1 of R173). -/
def State.tailResult (s : State) (a : Nat) : RunResult :=
  match s.host.spaceFor a with
  | none => s.noSpaceResult
  | some n =>
    if n ≤ 2 ∧ a ≤ n then (s.host.givenBack s.cnt.toNat, .ok, s.unl, true, true)
    else s.declinedResult

section

variable {s : State}

theorem State.paddingResult_none (h : s.host.spaceFor 0 = none) :
    s.paddingResult = s.noSpaceResult := by
  rw [State.paddingResult, h]

theorem State.paddingResult_full (h : s.host.spaceFor 0 = some 0) :
    s.paddingResult = (s.host, .ok, s.unl, s.msw, s.cheap) := by
  rw [State.paddingResult, h]
  rfl

theorem State.paddingResult_room {n : Nat} (h : s.host.spaceFor 0 = some n) (hn : 0 < n) :
    s.paddingResult = (s.host.switched [0x7C], .ok, true, true, s.cheap) := by
  obtain ⟨m, rfl⟩ := Nat.exists_eq_succ_of_ne_zero hn.ne'
  rw [State.paddingResult, h]
  rfl

theorem State.groupResult_none (h : s.host.spaceFor s.cnt.toNat = none) :
    s.groupResult = s.noSpaceResult := by
  rw [State.groupResult, h]

theorem State.groupResult_marked {n : Nat} (h : s.host.spaceFor s.cnt.toNat = some n)
    (hn : 0 < n ∨ s.cnt.toNat = 3) :
    s.groupResult =
      (s.host.switched (finalGroup (s.buf.set s.cnt.toNat 0x1F) (s.cnt.toNat + 1)), .ok, true, true,
        s.cheap) := by
  rw [State.groupResult, h]
  exact if_pos hn

theorem State.groupResult_unmarked (h : s.host.spaceFor s.cnt.toNat = some 0)
    (hn : s.cnt.toNat ≠ 3) :
    s.groupResult =
      (s.host.emitting (finalGroup s.buf s.cnt.toNat), .ok, s.unl, s.msw, s.cheap) := by
  rw [State.groupResult, h]
  exact if_neg (by omega)

theorem State.tailResult_none {a : Nat} (h : s.host.spaceFor a = none) :
    s.tailResult a = s.noSpaceResult := by
  rw [State.tailResult, h]

theorem State.tailResult_fits {a n : Nat} (h : s.host.spaceFor a = some n) (hn : n ≤ 2 ∧ a ≤ n) :
    s.tailResult a = (s.host.givenBack s.cnt.toNat, .ok, s.unl, true, true) := by
  rw [State.tailResult, h]
  exact if_pos hn

theorem State.tailResult_declined {a n : Nat} (h : s.host.spaceFor a = some n)
    (hn : ¬(n ≤ 2 ∧ a ≤ n)) : s.tailResult a = s.declinedResult := by
  rw [State.tailResult, h]
  exact if_neg hn

end

/-- The size of the tail at `E_CNT`, where no more than four characters are left (R162). -/
def State.tailSize (s : State) : Nat :=
  s.sizeFn.size (s.buf.pending s.cnt.toNat ++ s.host.unread)

/-- The whole of R173, read at `E_CNT`. -/
def State.segmentResult (s : State) : RunResult :=
  if 0 < s.cnt.toNat + (s.host.inp.length - s.host.pos) ∧
      s.cnt.toNat + (s.host.inp.length - s.host.pos) ≤ 4 ∧ s.tailSize ≤ 2 then
    s.tailResult s.tailSize
  else s.declinedResult

/-- At `E_CNT` no flag is set, and the outcome table is made of these parts. -/
theorem State.segmentOutcome_eq {s : State} (h : s.cleared) :
    s.segmentOutcome = s.segmentResult := by
  obtain ⟨-, hunl, hmsw, hcheap⟩ := h
  simp only [State.segmentResult, State.tailResult, State.declinedResult, State.emptyResult,
    State.paddingResult, State.groupResult, State.noSpaceResult, hunl, hmsw, hcheap]
  rfl

/-! ### The final group -/

theorem finalGroup_length (b : Buf) (k : Nat) : (finalGroup b k).length = min k 3 := by
  simp [finalGroup]

/-- The codewords still to come of a group, the next one first (R171). -/
theorem finalGroup_drop (b : Buf) {k i : Nat} (hi : i < ncw k) :
    (finalGroup b k).drop i = b.cw i k :: (finalGroup b k).drop (i + 1) := by
  have hlt : i < (finalGroup b k).length := by rwa [finalGroup_length]
  rw [List.drop_eq_getElem_cons hlt]
  simp [finalGroup]

theorem HostCtx.emitting_emitting (h : HostCtx) (l l' : List Byte) :
    (h.emitting l).emitting l' = h.emitting (l ++ l') := by
  simp [HostCtx.emitting]

/-- A codeword that is not the last of the final group (R171). -/
theorem HostCtx.emitting_nextCodeword (h : HostCtx) (b : Buf) {k i : Nat} (hi : i < ncw k) :
    (h.emitting [b.cw i k]).emitting ((finalGroup b k).drop (i + 1)) =
      h.emitting ((finalGroup b k).drop i) := by
  rw [HostCtx.emitting_emitting, finalGroup_drop b hi]
  rfl

/-- The last codeword of the final group (R171). -/
theorem HostCtx.emitting_lastCodeword (h : HostCtx) (b : Buf) {k i : Nat} (hk : i < ncw k)
    (hi : i = ncw k - 1) : h.emitting [b.cw i k] = h.emitting ((finalGroup b k).drop i) := by
  have hnil : (finalGroup b k).drop (i + 1) = [] :=
    List.drop_eq_nil_of_le (by rw [finalGroup_length]; simp only [ncw] at hi; omega)
  rw [finalGroup_drop b hk, hnil]

/-- `PUSHBACK` gives back what was taken (R164, R195). -/
theorem HostCtx.givenBack_eq (h : HostCtx) {n : Nat} (draw : Nat) (hn : n ≤ h.pos) :
    { h with pos := h.posAfterPushback n draw, mode := .default } = h.givenBack n := by
  rw [posAfterPushback_of_taken draw hn]
  rfl

/-- With no cell pending there is no final group. -/
theorem HostCtx.switched_emptyGroup (h : HostCtx) (b : Buf) {n : BitVec 3} (hn : n = 0) :
    h.switched (finalGroup b n.toNat) = { h with mode := .default } := by
  simp [HostCtx.switched, finalGroup, hn]

/-! ### A step -/

/-- What an end of segment will come to from the phase. -/
def Phase.resultAhead (p : Phase) (s : State) : RunResult :=
  match p with
  | .eCnt => s.segmentResult
  | .ePeek =>
    let a := s.sizeFn.size (s.buf.pending s.cnt.toNat ++ s.host.unread.take (4 - s.cnt.toNat))
    if a ≤ 2 then s.tailResult a else s.declinedResult
  | .eSpc1 => s.tailResult s.asz.toNat
  | .ePb => (s.host.givenBack s.cnt.toNat, .ok, s.unl, true, true)
  | .eMore => s.emptyResult
  | .eSpc0 => s.paddingResult
  | .eUnlp => (s.host.switched [0x7C], .ok, true, true, s.cheap)
  | .eUnls => (s.host.emitting [0x7C], .ok, true, s.msw, s.cheap)
  | .eSpck => s.groupResult
  | .eMode => (s.host.switched (finalGroup s.buf s.cnt.toNat), .ok, s.unl, true, s.cheap)
  | .eFlush =>
    (s.host.emitting ((finalGroup s.buf s.cnt.toNat).drop s.eidx.toNat), .ok, s.unl, s.msw, s.cheap)
  | _ => s.result

theorem resultAhead_of_decline {p : Phase} {s : State} (hp : p = decline s.cnt) :
    p.resultAhead s = s.declinedResult := by
  rcases decline_eq s.cnt with ⟨hd, hn⟩ | ⟨hd, hn⟩ <;> rw [hp, hd, State.declinedResult]
  · rw [if_pos (by rw [hn]; rfl)]
    rfl
  · rw [if_neg hn.ne']
    rfl

/-- The phases of end-of-segment handling, and `HALT`. -/
def Phase.endsSegment : Phase → Bool
  | .idle => false
  | .lTake => false
  | .lFlush => false
  | .lSwq => false
  | _ => true

theorem Phase.endsSegment_of_mem_successors {p q : Phase} (hp : p.endsSegment = true)
    (hb : p.busy = true) (hq : q ∈ p.successors) : q.endsSegment = true := by
  revert hp hb hq
  cases p <;> cases q <;> decide

theorem HostCtx.unread_length (h : HostCtx) : h.unread.length = h.inp.length - h.pos :=
  List.length_drop

/-- The tail sized in `E_PEEK` is the pending characters and the first of the input left (R162,
R193). -/
theorem tail_hostPeek {s : State} (hf : s.forced = []) :
    tail s.buf s.cnt s.hostPeek.hrsp =
      s.buf.pending s.cnt.toNat ++ s.host.unread.take (4 - s.cnt.toNat) := by
  have hmin : min (min s.host.unread.length 4) (4 - s.cnt.toNat) =
      min (4 - s.cnt.toNat) s.host.unread.length := by omega
  rw [tail, hostPeek_preview hf (Nat.min_le_left _ _), hostPeek_len hf, ← s.host.unread_length,
    hmin, ← List.take_eq_take_min]

theorem toNat_ofNat_min_three {a : Nat} (h : a ≤ 2) : (BitVec.ofNat 2 (min a 3)).toNat = a := by
  rw [BitVec.toNat_ofNat, min_eq_left (by omega), Nat.mod_eq_of_lt (by omega)]

/-- `E_CNT` goes to `E_PEEK` where the table asks for the size of the tail (R161). -/
theorem resultAhead_ePeek_of_fewLeft {s : State}
    (h : 0 < s.cnt.toNat + (s.host.inp.length - s.host.pos) ∧
      s.cnt.toNat + (s.host.inp.length - s.host.pos) ≤ 4) :
    Phase.ePeek.resultAhead s = Phase.eCnt.resultAhead s := by
  obtain ⟨h0, h4⟩ := h
  have htake : s.host.unread.take (4 - s.cnt.toNat) = s.host.unread :=
    List.take_of_length_le (by rw [HostCtx.unread_length]; omega)
  simp only [Phase.resultAhead, State.segmentResult, State.tailSize, htake, h0, h4, true_and]

/-- The outcome is not changed by a step of end-of-segment handling. -/
theorem Phase.Updated.resultAhead_eq {p : Phase} {s t : State} (hu : p.Updated (p.serve s) t)
    (hb : p.busy = true) (he : p.endsSegment = true) (hp : s.ph = p) (hc : s.ControlInv)
    (hh : s.HostInv) : t.ph.resultAhead t = p.resultAhead s := by
  obtain ⟨-, hcnt, ⟨hidx, hflush, -⟩, -⟩ := hc
  obtain ⟨hf, -, hpend, -⟩ := hh
  obtain ⟨htaken, -⟩ := s.pendingOk_iff.mp hpend
  rw [hp] at htaken hflush
  cases hu <;> simp only [Engine.countOk, hp] at hcnt
  case resting hr => simp [hr] at hb
  case inputEnd | illegal | accepted | fourth | groupDone | switch | stay => cases he
  case fewLeft hr =>
    rw [Phase.serve, hostCount_int hf] at hr
    exact resultAhead_ePeek_of_fewLeft hr
  case notFewLeft hr =>
    rw [Phase.serve, hostCount_int hf] at hr
    exact (resultAhead_of_decline rfl).trans (if_neg fun ⟨h0, h4, _⟩ => hr ⟨h0, h4⟩).symm
  case shortTail a h2 ha =>
    rw [Phase.serve, State.hostPeek_toEngine, State.hostPeek_sizeFn, tail_hostPeek hf] at ha
    subst ha
    exact (congrArg s.tailResult (toNat_ofNat_min_three h2)).trans (if_pos h2).symm
  case longTail a h2 ha =>
    rw [Phase.serve, State.hostPeek_toEngine, State.hostPeek_sizeFn, tail_hostPeek hf] at ha
    subst ha
    refine (resultAhead_of_decline ?_).trans (if_neg (Nat.not_le.mpr h2)).symm
    rfl
  case noSpace hr hp' =>
    rcases hp' with rfl | rfl | rfl <;> rw [Phase.serve, hostSpace_space? hf] at hr
    · exact (State.tailResult_none hr).symm
    · exact (State.paddingResult_none hr).symm
    · exact (State.groupResult_none hr).symm
  case tailFits n hr hn =>
    rw [Phase.serve, hostSpace_space? hf] at hr
    exact (State.tailResult_fits hr hn).symm
  case tailDeclined n hr hn =>
    rw [Phase.serve, hostSpace_space? hf] at hr
    exact (resultAhead_of_decline rfl).trans (State.tailResult_declined hr hn).symm
  case pushedBack =>
    obtain ⟨hle, -, -⟩ := htaken rfl
    exact Prod.ext ((HostCtx.switched_emptyGroup _ _ rfl).trans (s.host.givenBack_eq _ hle)) rfl
  case more hr =>
    rw [Phase.serve, hostMore_flag hf, decide_eq_true_iff] at hr
    exact (if_pos (Nat.sub_pos_of_lt hr)).symm
  case noMore hr =>
    rw [Phase.serve, hostMore_flag hf, decide_eq_false_iff_not] at hr
    exact (if_neg (by omega)).symm
  case room n hn hr =>
    rw [Phase.serve, hostSpace_space? hf] at hr
    exact (State.paddingResult_room hr hn).symm
  case full hr =>
    rw [Phase.serve, hostSpace_space? hf] at hr
    exact (State.paddingResult_full hr).symm
  case unlatchPadding => exact Prod.ext (HostCtx.switched_emptyGroup _ _ hcnt) rfl
  case unlatchSwitch => rfl
  case marked n hr hn =>
    rw [Phase.serve, hostSpace_space? hf] at hr
    have hpush : (s.cnt + 1).toNat = s.cnt.toNat + 1 := s.push_cnt_toNat unlatchByte hcnt.2
    refine Eq.trans ?_ (State.groupResult_marked hr (hn.imp_right (congrArg BitVec.toNat))).symm
    rw [← hpush]
    rfl
  case unmarked hr hn =>
    rw [Phase.serve, hostSpace_space? hf] at hr
    exact (State.groupResult_unmarked hr fun h => hn (BitVec.eq_of_toNat_eq h)).symm
  case modeThenFlush hn => rfl
  case modeThenHalt hn => exact Prod.ext (HostCtx.switched_emptyGroup _ _ hn).symm rfl
  case nextCodeword hi hp' =>
    obtain rfl : p = .eFlush := hp'.resolve_left (by rintro rfl; cases he)
    have hnext : (s.eidx + 1).toNat = s.eidx.toNat + 1 := by bv_omega
    refine Prod.ext (Eq.trans ?_ (s.host.emitting_nextCodeword s.buf (hflush (.inr rfl)))) rfl
    rw [← hnext]
    rfl
  case lastGroupDone hi =>
    exact Prod.ext (s.host.emitting_lastCodeword s.buf (hflush (.inr rfl)) hi) rfl

/-! ### A run -/

/-- What a run keeps from `E_CNT` on, with no input scheduled: what it will come to. -/
def State.EndsAs (o : RunResult) (s : State) : Prop :=
  s.ControlInv ∧ s.HostInv ∧ s.inputs = [] ∧ s.ph.endsSegment = true ∧ s.ph.resultAhead s = o

/-- Sampling quiet pins does not change what the run will come to. -/
theorem resultAhead_sample {s : State} (p : Phase) (hi : s.inputs = []) :
    p.resultAhead s.sample = p.resultAhead s := by
  rw [sample_of_inputs_nil hi]
  rfl

theorem step_endsAs {o : RunResult} {s t : State} (h : s.EndsAs o)
    (hs : step s = .next t) : t.EndsAs o := by
  obtain ⟨hc, hh, hi, he, ho⟩ := h
  have hc' := Proofs.stepKeepsTheControlInvariant s t hc hs
  have hh' := Proofs.stepKeepsTheHostInvariant s t hc hh hs
  refine ⟨hc', hh', ?_⟩
  rcases step_next_of_inputs_nil hc.1 hi hs with ⟨-, rfl⟩ | ⟨hb, rfl⟩
  · exact ⟨by simp [hi], he, (resultAhead_sample _ hi).trans ho⟩
  · have hu := s.ph.updated (s.ph.serve s.sample)
    obtain ⟨⟨-, -, hin, -⟩, -⟩ := hu.sameSurroundings
    obtain ⟨-, -, hin', -⟩ := s.ph.sameOutside_serve s.sample
    have hahead := hu.resultAhead_eq hb he rfl (sample_controlInv hc) (sample_hostInv hh)
    exact ⟨by simp [hin, hin', hi], Phase.endsSegment_of_mem_successors he hb hu.mem_successors,
      (hahead.trans (resultAhead_sample _ hi)).trans ho⟩

/-- A run from `E_CNT` that is over has come to what the table gives. -/
theorem segmentEnd_result {s t : State} {n : Nat} (hp : s.ph = .eCnt) (hc : s.ControlInv)
    (hh : s.HostInv) (hi : s.inputs = []) (hrun : Host.Core.run core n s = .next t)
    (ht : t.ph = .halt) : t.cnt = 0 ∧ t.result = s.segmentResult := by
  have hstart : s.EndsAs s.segmentResult := ⟨hc, hh, hi, by rw [hp]; rfl, by rw [hp]; rfl⟩
  obtain ⟨⟨-, hcnt, -⟩, -, -, -, ho⟩ := run_keeps (fun _ _ => step_endsAs) n hstart hrun
  simp only [Engine.countOk, ht] at hcnt
  rw [ht] at ho
  exact ⟨hcnt, ho⟩

/-! ### What is emitted -/

/-- The host has got at most three codewords more, and no more than it said would fit (R174). -/
def State.Fits (s : State) (h : HostCtx) : Prop :=
  ∃ new, h.out = s.host.out ++ new ∧ new.length ≤ 3 ∧
    (s.cnt ≠ 0 → new ≠ [] → ∃ k, s.host.spaceFor s.cnt.toNat = some k ∧
      new.length ≤ s.cnt.toNat + k) ∧
    (s.cnt = 0 → s.host.pos = s.host.inp.length → new ≠ [] → ∃ k, s.host.spaceFor 0 = some k ∧
      new.length ≤ k)

theorem State.fits_of_out_eq {s : State} {h : HostCtx} (ho : h.out = s.host.out) : s.Fits h :=
  ⟨[], by simp [ho], by simp, fun _ hn => absurd rfl hn, fun _ _ hn => absurd rfl hn⟩

/-- Rows 2, 3 and 8 of R173: one codeword, with room for it. -/
theorem State.fits_paddingResult {s : State} (h0 : s.cnt = 0) : s.Fits s.paddingResult.1 := by
  rcases ha : s.host.spaceFor 0 with _ | n
  · rw [State.paddingResult_none ha]
    exact State.fits_of_out_eq rfl
  · rcases n.eq_zero_or_pos with rfl | hn
    · rw [State.paddingResult_full ha]
      exact State.fits_of_out_eq rfl
    · rw [State.paddingResult_room ha hn]
      exact ⟨[0x7C], rfl, by decide, fun h => absurd h0 h, fun _ _ _ => ⟨n, ha, hn⟩⟩

/-- Row 4 of R173: one codeword that was not asked for, with input left. -/
theorem State.fits_emptyResult {s : State} (h0 : s.cnt = 0) : s.Fits s.emptyResult.1 := by
  rw [State.emptyResult]
  split_ifs with hr
  · exact ⟨[0x7C], rfl, by decide, fun h => absurd h0 h, fun _ he => by omega⟩
  · exact State.fits_paddingResult h0

/-- Rows 5 to 8 of R173: the marker is counted only where there is room for it, or in a full
group. -/
theorem State.fits_groupResult {s : State} (h0 : s.cnt ≠ 0) : s.Fits s.groupResult.1 := by
  rcases ha : s.host.spaceFor s.cnt.toNat with _ | n
  · rw [State.groupResult_none ha]
    exact State.fits_of_out_eq rfl
  · by_cases hn : 0 < n ∨ s.cnt.toNat = 3
    · rw [State.groupResult_marked ha hn]
      refine ⟨_, rfl, ?_, fun _ _ => ⟨n, ha, ?_⟩, fun h => absurd h h0⟩ <;>
        rw [finalGroup_length] <;> omega
    · obtain ⟨hz, h3⟩ := not_or.mp hn
      obtain rfl : n = 0 := by omega
      rw [State.groupResult_unmarked ha h3]
      refine ⟨_, rfl, ?_, fun _ _ => ⟨0, ha, ?_⟩, fun h => absurd h h0⟩ <;>
        rw [finalGroup_length] <;> omega

theorem State.fits_declinedResult (s : State) : s.Fits s.declinedResult.1 := by
  rw [State.declinedResult]
  split_ifs with h
  · exact State.fits_emptyResult (BitVec.eq_of_toNat_eq h)
  · exact State.fits_groupResult fun h0 => h (by rw [h0]; rfl)

theorem State.fits_tailResult (s : State) (a : Nat) : s.Fits (s.tailResult a).1 := by
  rcases ha : s.host.spaceFor a with _ | n
  · rw [State.tailResult_none ha]
    exact State.fits_of_out_eq rfl
  · by_cases hn : n ≤ 2 ∧ a ≤ n
    · rw [State.tailResult_fits ha hn]
      exact State.fits_of_out_eq rfl
    · rw [State.tailResult_declined ha hn]
      exact s.fits_declinedResult

theorem State.fits_segmentResult (s : State) : s.Fits s.segmentResult.1 := by
  rw [State.segmentResult]
  split_ifs
  · exact s.fits_tailResult _
  · exact s.fits_declinedResult

end Sys2Proof.Machine

namespace Sys2Proof.Proofs

open Sys2Proof.Machine

/-- Settles O58: the run ends within the bound of `E_CNT`, and has then come to what the table
gives. -/
theorem endOfSegmentIsTheOutcomeTable : Obligations.EndOfSegmentIsTheOutcomeTable := by
  intro s hp hc hh hi
  obtain ⟨n, t, hn, hrun, ht⟩ := everyRunEnds s hc hh hi (by rw [hp]; rfl)
  obtain ⟨hcnt, hresult⟩ := segmentEnd_result hp hc hh hi hrun ht
  obtain ⟨-, -, -, hflags⟩ := hc
  have hcleared : s.cleared := by simpa only [Engine.flagsOk, Engine.cleared, hp] using hflags
  refine ⟨n, t, ?_, hrun, ht, hcnt, hresult.trans (State.segmentOutcome_eq hcleared).symm⟩
  simpa only [State.stepsLeft, hp] using hn

/-- Settles O59: what the run has come to is what the table gives, and in each of its rows the
codewords fit. -/
theorem segmentEndEmitsWhatFits : Obligations.SegmentEndEmitsWhatFits := by
  intro s hp hc hh hi n t hrun ht
  obtain ⟨-, hresult⟩ := segmentEnd_result hp hc hh hi hrun ht
  have hhost : t.host = s.segmentResult.1 := congrArg Prod.fst hresult
  rw [hhost]
  exact s.fits_segmentResult

end Sys2Proof.Proofs
end

section
/-! The host commands as operations of their own (`43_host_operations.md` R190 to R201), and the
settling of O26 to O32. Each is an effect on the host, if any, and one response word delivered; the
engine's registers are not touched (R50). -/

namespace Sys2Proof.Machine

/-- An effect on the host followed by a response word answers one command (R93, R200). -/
theorem State.answered_deliver (s : State) (h : HostCtx) (r : Hrsp) :
    s.answered (State.deliver { s with host := h } r) :=
  ⟨⟨rfl, rfl, rfl, rfl⟩, rfl, rfl⟩

/-- All that `PEEK` returns is the first four unconsumed characters, or fewer at the end (R193). -/
theorem hostPeek_preview_len {s : State} (hf : s.forced = []) :
    s.hostPeek.hrsp.preview s.hostPeek.hrsp.len.toNat = s.host.unread.take 4 := by
  rw [hostPeek_preview hf le_rfl, hostPeek_len hf, ← s.host.unread_length, min_comm,
    ← List.take_eq_take_min]

/-- A host that does not know its capacity answers `none` (R201). -/
theorem spaceFor_of_unknown {h : HostCtx} (hc : h.cap = .fixed none) (n : Nat) :
    h.spaceFor n = none := by
  rw [HostCtx.spaceFor, hc]

/-- A host of capacity `c` answers what would remain, if `n` more codewords fit (R201). -/
theorem spaceFor_of_fixed {h : HostCtx} {c : Nat} (hc : h.cap = .fixed (some c)) (n : Nat) :
    h.spaceFor n = if h.out.length + n ≤ c then some (c - h.out.length - n) else none := by
  rw [HostCtx.spaceFor, hc]

/-- The answers to `SWITCHQ` are given in the order of the list (R201). -/
theorem switchFor_of_cons {h : HostCtx} {b : Bool} {l : List Bool} (hs : h.sw = b :: l)
    (draw : Nat) : h.switchFor draw = b := by
  rw [HostCtx.switchFor, hs]

/-- Once the list is used up, `SWITCHQ` is answered by the constant, if there is one (R201). -/
theorem switchFor_of_nil {h : HostCtx} {b : Bool} (hs : h.sw = []) (hr : h.swRest = some b)
    (draw : Nat) : h.switchFor draw = b := by
  rw [HostCtx.switchFor, hs, hr]
  rfl

end Sys2Proof.Machine

namespace Sys2Proof.Proofs

open Sys2Proof.Machine

/-- Settles O26: whether the cursor is before the end decides if it moves. -/
theorem takeReadsTheNextCharacter : Obligations.TakeReadsTheNextCharacter := by
  intro s
  have hans : s.answered s.hostTake := Phase.answered_serve (p := .lTake) rfl s
  refine ⟨s.hostTake, rfl, s.hostTake_toEngine, hans, hostTake_char?, fun h => ?_, fun h => ?_⟩
  · rw [hostTake_host, if_pos h]
  · rw [hostTake_host, if_neg (Nat.not_lt.mpr h)]

/-- Settles O27: the three queries leave the host alone and answer from its cursor. -/
theorem inputQueriesAnswerTheCursor : Obligations.InputQueriesAnswerTheCursor := by
  refine fun s => ⟨?count, ?more, ?peek⟩
  case count =>
    exact ⟨s.hostCount, rfl, rfl, s.answered_deliver .., rfl, hostCount_int⟩
  case more =>
    refine ⟨s.hostMore, rfl, rfl, s.answered_deliver .., rfl, fun hf => ?_⟩
    rw [hostMore_flag hf, decide_eq_true_iff]
  case peek =>
    exact ⟨s.hostPeek, rfl, rfl, s.answered_deliver .., rfl,
      fun hf => ⟨hostPeek_len hf, hostPeek_preview_len hf⟩⟩

/-- Settles O28: the cursor by whether that many characters were taken. -/
theorem pushbackMovesTheCursor : Obligations.PushbackMovesTheCursor := by
  refine fun n s => ⟨s.hostPushback n.toNat, rfl, rfl, s.answered_deliver .., rfl,
    posAfterPushback_of_taken s.draws, fun h => ?_⟩
  exact (posAfterPushback_of_beyond s.draws h).trans_le (min_le_right ..)

/-- Settles O29: each of the five operations is the host's `EMIT` of its codeword. -/
theorem codewordIsAppendedToTheSink : Obligations.CodewordIsAppendedToTheSink := by
  intro s cw a d b c x y p hp
  have hexec : exec p.1 s = .next (s.hostEmit p.2) := by
    simp only [List.mem_cons, List.not_mem_nil, or_false] at hp
    rcases hp with rfl | rfl | rfl | rfl | rfl <;> rfl
  exact ⟨s.hostEmit p.2, hexec, rfl, s.answered_deliver .., rfl⟩

/-- Settles O30: the answer is `spaceFor`, which a fixed capacity determines. -/
theorem spaceAnswersWithoutChange : Obligations.SpaceAnswersWithoutChange := by
  refine fun n s => ⟨s.hostSpace n.toNat, rfl, rfl, s.answered_deliver .., rfl, fun hf => ?_⟩
  have hans := hostSpace_space? hf n.toNat
  exact ⟨hans, fun hc => hans.trans (spaceFor_of_unknown hc _),
    fun c hc => hans.trans (spaceFor_of_fixed hc _)⟩

/-- Settles O31: `MODE_DEFAULT` is the code 0, and any other is refused. -/
theorem setmodeSelectsTheDefaultMode : Obligations.SetmodeSelectsTheDefaultMode :=
  fun s => ⟨⟨s.hostSetMode, rfl, rfl, s.answered_deliver .., rfl⟩, fun _ hm => if_neg hm⟩

/-- Settles O32: the answer of `SWITCHQ` is `switchFor`, by whether the list is used up. -/
theorem nopAndSwitchqLeaveTheStreams : Obligations.NopAndSwitchqLeaveTheStreams := by
  refine fun s => ⟨rfl, s.hostSwitchq, rfl, rfl, s.answered_deliver .., rfl, ?_, ?_⟩
  · intro hf b l hs
    rw [hostSwitchq_flag hf, switchFor_of_cons hs]
  · intro hf b hs hr
    rw [hostSwitchq_flag hf, switchFor_of_nil hs hr]

end Sys2Proof.Proofs
end

section
/-! Errors and how a run takes them (`60_exceptions.md` R210 to R216), and the settling of O47 and O51:
nothing but the two exceptions ends a run badly, and the update that takes one is
`State.takeException`. -/

namespace Sys2Proof.Machine

/-- With no presented word, the operands being in range, every step has a next state (R213). -/
theorem step_completes {s : State} (hp : s.presented = []) (hc : s.countOk) (hi : s.indexOk) :
    ∃ t, step s = .next t := by
  rw [step_of_presented_nil hp, Engine.operandFault_eq_none hc hi]
  split_ifs <;> exact ⟨_, rfl⟩

/-- The only updates of a run that leave the status of a fault: `IllegalChar` on the character
answered, `NoSpace` on the answer `none` (R210 to R212, R216). -/
theorem Phase.Updated.fault_cases {p : Phase} {s t : State} (hu : p.Updated s t)
    (hb : p.busy = true) (ht : t.faulted) :
    (p = .lTake ∧ t = s.takeException .illegalChar ∧
      ∃ c, s.hrsp.char? = some c ∧ encodable c = false) ∨
    ((p = .eSpc1 ∨ p = .eSpc0 ∨ p = .eSpck) ∧ t = s.takeException .noSpace ∧
      s.hrsp.space? = none) := by
  obtain ⟨hh, hst⟩ := ht
  cases hu
  case illegal c hr hc => exact .inl ⟨rfl, rfl, c, hr, hc⟩
  case noSpace hr hp => exact .inr ⟨hp, rfl, hr⟩
  case full | lastGroupDone | unlatchSwitch | modeThenHalt => simp at hst
  case resting hp => simp [hp] at hb
  case nextCodeword hi hp => rcases hp with rfl | rfl <;> cases hh
  case notFewLeft | longTail | tailDeclined => exact absurd hh (decline_not_ended _).1
  all_goals cases hh

/-- A query for space does nothing to the host (R197). -/
theorem serve_host_of_space {p : Phase} (hp : p = .eSpc1 ∨ p = .eSpc0 ∨ p = .eSpck) (s : State) :
    (p.serve s).host = s.host := by
  rcases hp with rfl | rfl | rfl <;> rfl

theorem encodable_eq_false_iff (c : Byte) : encodable c = false ↔ c.toNat < 32 ∨ 94 < c.toNat := by
  rw [← Bool.not_eq_true, encodable_iff]
  omega

/-- After a fault the flags are 0 (R216). -/
theorem State.flags_of_faulted {s : State} (h : s.ControlInv) (hs : s.faulted) :
    s.unl = false ∧ s.msw = false ∧ s.cheap = false := by
  obtain ⟨-, -, -, hflags⟩ := h
  obtain ⟨hh, hst⟩ := hs
  simp only [Engine.flagsOk, hh] at hflags
  rcases hflags with ⟨hok, -⟩ | ⟨-, hzero⟩
  · simp [hok] at hst
  · simpa using hzero

/-- A step from outside `HALT` that ends in a fault is the update of a run. -/
theorem step_faulted {s t : State} (hp : s.presented = []) (hs : step s = .next t)
    (hn : s.ph ≠ .halt) (ht : t.faulted) :
    s.ph.busy = true ∧ t = s.ph.update (s.ph.serve s.sample) := by
  obtain ⟨hh, -⟩ := ht
  rcases step_next_cases hp hs with ⟨-, rfl⟩ | rfl | ⟨-, rfl⟩ | hrun
  · cases hh
  · exact absurd hh hn
  · cases hh
  · exact hrun

end Sys2Proof.Machine

namespace Sys2Proof.Proofs

open Sys2Proof.Machine

/-- Settles O47: the invariant of the engine alone keeps the operands of every phase in range,
whatever the host answers. -/
theorem everyStepCompletes : Obligations.EveryStepCompletes := by
  rintro s ⟨hp, hcnt, hidx, -⟩ -
  exact step_completes hp hcnt hidx

/-- Settles O51: such a step takes one of the two exceptions on the state its command was served in;
the flags are those of the invariant. -/
theorem exceptionEntryWritesNothingElse : Obligations.ExceptionEntryWritesNothingElse := by
  intro s t hc hs hn hh hst
  obtain ⟨hunl, hmsw, hcheap⟩ :=
    State.flags_of_faulted (stepKeepsTheControlInvariant s t hc hs) ⟨hh, hst⟩
  obtain ⟨hb, hupdate⟩ := step_faulted hc.1 hs hn ⟨hh, hst⟩
  have hhost : s.sample.host = s.host := State.sample_host_of_busy hb
  have hu : s.ph.Updated (s.ph.serve s.sample) t := hupdate ▸ s.ph.updated _
  rcases hu.fault_cases hb ⟨hh, hst⟩ with ⟨hp, rfl, c, hr, hbad⟩ | ⟨hp, rfl, hr⟩
  · refine ⟨?_, hunl, hmsw, hcheap, fun _ => ⟨hp, ?_, c, hr, ?_⟩, nofun⟩
    · simp [State.takeException_toEngine]
    · simp [hp, Phase.serve, hostTake_host, hhost]
    · exact (encodable_eq_false_iff c).mp hbad
  · refine ⟨?_, hunl, hmsw, hcheap, nofun, fun _ => ⟨hp, ?_, hr⟩⟩
    · simp [State.takeException_toEngine]
    · exact (serve_host_of_space hp _).trans hhost

end Sys2Proof.Proofs
end

section
/-! Reset (`70_reset_and_hazards.md` R240, R241): the step with `rst = 1`, the outputs of an idle
engine, and the settling of O6. -/

namespace Sys2Proof.Machine

/-- `rst` overrides `PH`, the other pins and any presented word (R240). -/
theorem step_of_rst {s : State} (hr : s.nextSample.pins.rst = true) :
    step s = .next s.sample.resetEngine := by
  simp [step, hr]

/-- An idle engine with no result of a run shows an empty `STATUS` (R34). -/
theorem Engine.status_eq_zero {e : Engine} (hph : e.ph = .idle) (hst : e.st = .none)
    (hunl : e.unl = false) (hmsw : e.msw = false) (hcheap : e.cheap = false) : e.status = 0 := by
  rw [Engine.status, hph, hst, hunl, hmsw, hcheap]
  rfl

theorem resetEngine_status (s : State) : s.resetEngine.status = 0 :=
  Engine.status_eq_zero rfl rfl rfl rfl rfl

/-- No command is presented in `IDLE` (R90). -/
theorem Engine.cmdValid_of_idle {e : Engine} (h : e.ph = .idle) : e.cmdValid = false := by
  rw [Engine.cmdValid, h]
  rfl

theorem Engine.hcmd_of_idle {e : Engine} (h : e.ph = .idle) : e.hcmd = 0 := by
  rw [Engine.hcmd, Engine.command, h]
  rfl

end Sys2Proof.Machine

namespace Sys2Proof.Proofs

open Sys2Proof.Machine

/-- Settles O6: the step is the reset of the sampled state; the registers are those of
`State.resetEngine`, the outputs those of an idle engine, and the host that of the sampling. -/
theorem rstStepResetsTheEngine : Obligations.RstStepResetsTheEngine := by
  intro s hr
  have hidle : s.sample.resetEngine.ph = .idle := rfl
  exact ⟨s.sample.resetEngine, step_of_rst hr, hidle, rfl, rfl, rfl, rfl, rfl,
    resetEngine_status _, Engine.cmdValid_of_idle hidle, Engine.hcmd_of_idle hidle, rfl,
    State.sample_host_of_busy, rfl, rfl⟩

end Sys2Proof.Proofs
end
